-- ==== Sys2Proof/Word.lean ====
section
/-! DEFINITION. The word types of the V4LP (spec/00_scope.md R8, R11): bytes, 32-bit words (scalar registers, addresses,
instruction words, binary32 lanes), 64-bit words (the binary64 intermediate of R165) and 128-bit vector words. Bit 0 is the
least significant bit of each. -/

namespace Sys2Proof

/-- One byte of IMEM or DMEM (R61, R62). -/
abbrev Byte := BitVec 8

/-- A 32-bit value: a scalar register, a lane, an address, an instruction word or a control register (R8, R41). -/
abbrev Word := BitVec 32

/-- A 64-bit value: the binary64 intermediate inside one lane of a §4.5 instruction (R165, R168). -/
abbrev DWord := BitVec 64

/-- A 128-bit vector value (R8, R31, R32). -/
abbrev VWord := BitVec 128

end Sys2Proof
end

