-- ==== Sys2Proof/Machine/Float.lean ====
section
/-! DEFINITION. The binary32 primitives of spec/42_arithmetic.md part 1 (R150-R167), on raw patterns (R16). A finite value is
held exactly, as a fraction of an integer and a positive natural number; the two formats of R150 and R165 share one text,
and each operation rounds once, to nearest with ties to even and gradual underflow (R153-R155). Nothing here sets a flag
(R156). -/

namespace Sys2Proof.Machine

/-- An exact rational number `num / den`; every `den` made here is positive. -/
structure Frac where
  num : Int
  den : Nat
deriving DecidableEq, Repr

/-- The exact sum. -/
def Frac.add (r s : Frac) : Frac := ⟨r.num * s.den + s.num * r.den, r.den * s.den⟩

/-- The exact product. -/
def Frac.mul (r s : Frac) : Frac := ⟨r.num * s.num, r.den * s.den⟩

/-- The exact quotient, for a nonzero divisor. -/
def Frac.div (r s : Frac) : Frac := ⟨r.num * s.den * s.num.sign, r.den * s.num.natAbs⟩

/-- `r < s`. -/
def Frac.lt (r s : Frac) : Bool := decide (r.num * s.den < s.num * r.den)

/-- `r = s` as numbers. -/
def Frac.eq (r s : Frac) : Bool := decide (r.num * s.den = s.num * r.den)

/-! ### Formats, fields and classes (R150, R165) -/

/-- A binary interchange format: how many fraction bits, how many exponent bits; the sign is the bit above them. -/
structure Format where
  fracBits : Nat
  expBits : Nat
deriving DecidableEq, Repr

/-- binary32 (R150): fraction 22..0, exponent 30..23, sign 31. -/
def binary32 : Format := ⟨23, 8⟩

/-- binary64 (R165): fraction 51..0, exponent 62..52, sign 63. -/
def binary64 : Format := ⟨52, 11⟩

/-- The exponent field of infinities and NaNs: 255 or 2047. -/
def Format.maxExp (f : Format) : Nat := 2 ^ f.expBits - 1

/-- The bias: 127 or 1023. -/
def Format.bias (f : Format) : Nat := 2 ^ (f.expBits - 1) - 1

/-- The least positive value is `2 ^ -scale`: 149 or 1074. -/
def Format.scale (f : Format) : Nat := f.bias + f.fracBits - 1

/-- `s`, the sign bit (R150). -/
def Format.sign (f : Format) {w : Nat} (x : BitVec w) : Bool := x.getLsbD (f.expBits + f.fracBits)

/-- `e`, the biased exponent (R150). -/
def Format.exponent (f : Format) {w : Nat} (x : BitVec w) : Nat := (x.extractLsb' f.fracBits f.expBits).toNat

/-- `f`, the fraction (R150). -/
def Format.fraction (f : Format) {w : Nat} (x : BitVec w) : Nat := (x.extractLsb' 0 f.fracBits).toNat

/-- NaN: the largest exponent and a nonzero fraction (R150). -/
def Format.isNaN (f : Format) {w : Nat} (x : BitVec w) : Bool := f.exponent x == f.maxExp && f.fraction x != 0

/-- Infinity: the largest exponent and a zero fraction (R150). -/
def Format.isInf (f : Format) {w : Nat} (x : BitVec w) : Bool := f.exponent x == f.maxExp && f.fraction x == 0

/-- Zero of either sign (R150). -/
def Format.isZero (f : Format) {w : Nat} (x : BitVec w) : Bool := f.exponent x == 0 && f.fraction x == 0

/-- The significand as an integer: the fraction of a zero or subnormal, with the hidden bit of a normal (R150). -/
def Format.significand (f : Format) {w : Nat} (x : BitVec w) : Nat :=
  if f.exponent x = 0 then f.fraction x else 2 ^ f.fracBits + f.fraction x

/-- `value(x)` of a zero, subnormal or normal `x` (R150, R165): `(−1)^s · significand · 2^(max e 1 − 1) / 2^scale`. -/
def Format.value (f : Format) {w : Nat} (x : BitVec w) : Frac :=
  let m : Int := ((f.significand x * 2 ^ (max (f.exponent x) 1 - 1) : Nat) : Int)
  ⟨if f.sign x then -m else m, 2 ^ f.scale⟩

/-! ### Rounding (R153, R165) -/

/-- The pattern with this sign bit and these magnitude bits. -/
def Format.pack (f : Format) (w : Nat) (neg : Bool) (magnitude : Nat) : BitVec w :=
  BitVec.ofNat w ((if neg then 2 ^ (f.expBits + f.fracBits) else 0) + magnitude)

/-- The magnitude bits of infinity: `0xFF ++ 0^23` or `0x7FF ++ 0^52`. -/
def Format.infBits (f : Format) : Nat := f.maxExp * 2 ^ f.fracBits

/-- `floor (log2 (n / d))` for positive `n` and `d`. -/
def floorLog2 (n d : Nat) : Int :=
  let e : Int := (n.log2 : Int) - (d.log2 : Int)
  if d * 2 ^ e.toNat ≤ n * 2 ^ (-e).toNat then e else e - 1

/-- The integer nearest `n / d`, ties to the even integer (R153). -/
def nearestEven (n d : Nat) : Nat :=
  let k := n / d
  let r := n % d
  if d < 2 * r then k + 1 else if 2 * r = d then k + k % 2 else k

/-- The overflow threshold of R153 and R165, `2^128 − 2^103` or `2^1024 − 2^970`: a magnitude not below it becomes infinity. -/
def Format.overflow (f : Format) : Nat := 2 ^ (f.bias + 1) - 2 ^ (f.bias - f.fracBits - 1)

/-- The binade `E = max(floor(log2 m), −126)` of R153, counted from the lowest one: `E + 126`. -/
def Format.binade (f : Format) (log2m : Int) : Nat := (log2m + (f.bias - 1 : Nat)).toNat

/-- The magnitude bits of `encode(s, k·q)` (R153) for `q` the spacing of binade `b`: a `k` below `2^fracBits` in the lowest
binade is the subnormal pattern `k`, and `k = 2^(fracBits+1)` carries into the next binade (log entry 13). -/
def Format.encodeBits (f : Format) (b k : Nat) : Nat := b * 2 ^ f.fracBits + k

/-- `round32` and `round64` (R153, R165) for a nonzero `r`: with `m = |r|` and spacing `q = 2^b / 2^scale`, the nearest
integer to `m / q`. -/
def Format.round (f : Format) (w : Nat) (r : Frac) : BitVec w :=
  let n := r.num.natAbs
  let bits :=
    if f.overflow * r.den ≤ n then f.infBits
    else
      let b := f.binade (floorLog2 n r.den)
      f.encodeBits b (nearestEven (n * 2 ^ f.scale) (r.den * 2 ^ b))
  f.pack w (decide (r.num < 0)) bits

/-- One bit of the integer square root after another, from bit `i − 1` down: the largest `s` made from `s` and those bits
with `s * s ≤ n`. -/
def sqrtBits (n : Nat) : Nat → Nat → Nat
  | 0, s => s
  | i + 1, s => if (s + 2 ^ i) * (s + 2 ^ i) ≤ n then sqrtBits n i (s + 2 ^ i) else sqrtBits n i s

/-- `floor (sqrt n)`. -/
def floorSqrt (n : Nat) : Nat := sqrtBits n (n.log2 / 2 + 1) 0

/-- The integer nearest `sqrt (n / d)`, ties to the even integer (R153 at the square root of R165). -/
def nearestEvenSqrt (n d : Nat) : Nat :=
  let k := floorSqrt (n / d)
  let half := d * ((2 * k + 1) * (2 * k + 1))
  if half < 4 * n then k + 1 else if 4 * n = half then k + k % 2 else k

/-- `round64(sqrt(r))` (R165) for a positive `r`: the nearest integer to `sqrt(r) / q`, without an intermediate rounding
(log entry 14). -/
def Format.roundSqrt (f : Format) (w : Nat) (r : Frac) : BitVec w :=
  let n := r.num.natAbs
  let bits :=
    if f.overflow * f.overflow * r.den ≤ n then f.infBits
    else
      let b := f.binade (floorLog2 n r.den / 2)
      f.encodeBits b (nearestEvenSqrt (n * 2 ^ (2 * f.scale)) (r.den * 2 ^ (2 * b)))
  f.pack w false bits

/-! ### Binary32 (R150-R164) -/

/-- `is_nan` (R150). -/
def isNaN (x : Word) : Bool := binary32.isNaN x

/-- `is_inf` (R150). -/
def isInf (x : Word) : Bool := binary32.isInf x

/-- `is_zero` (R150). -/
def isZero (x : Word) : Bool := binary32.isZero x

/-- `sign` (R150). -/
def sign (x : Word) : Bool := binary32.sign x

/-- `value` (R150). -/
def value (x : Word) : Frac := binary32.value x

/-- `round32` (R153). -/
def round32 (r : Frac) : Word := binary32.round 32 r

/-- `is_snan` (R151): a NaN whose bit 22 is 0. -/
def isSNaN (x : Word) : Bool := isNaN x && !x.getLsbD 22

/-- `quiet` (R151): set bit 22. -/
def quiet (x : Word) : Word := x ||| 0x00400000#32

/-- `DEFAULT_NAN` (R152). -/
def defaultNaN : Word := 0xFFC00000#32

/-- `s ++ 0xFF ++ 0^23`: infinity of sign `s`. -/
def infOf (s : Bool) : Word := if s then 0xFF800000#32 else 0x7F800000#32

/-- `s ++ 0^31`: zero of sign `s`. -/
def zeroOf (s : Bool) : Word := if s then 0x80000000#32 else 0x00000000#32

/-- `f32_add` (R159). -/
def f32Add (a b : Word) : Word :=
  if isNaN a then quiet a
  else if isNaN b then quiet b
  else if isInf a && isInf b && (sign a != sign b) then defaultNaN
  else if isInf a then a
  else if isInf b then b
  else
    let r := (value a).add (value b)
    if r.num = 0 then (if isZero a && isZero b && (sign a == sign b) then a else 0x00000000#32)
    else round32 r

/-- `f32_sub` (R160): a NaN subtrahend keeps its own sign. -/
def f32Sub (a b : Word) : Word :=
  if isNaN a then quiet a
  else if isNaN b then quiet b
  else f32Add a (b ^^^ 0x80000000#32)

/-- `f32_mul` (R161). -/
def f32Mul (a b : Word) : Word :=
  if isNaN a then quiet a
  else if isNaN b then quiet b
  else
    let s := sign a ^^ sign b
    if (isInf a && isZero b) || (isZero a && isInf b) then defaultNaN
    else if isInf a || isInf b then infOf s
    else
      let r := (value a).mul (value b)
      if r.num = 0 then zeroOf s else round32 r

/-- `f32_div` (R162): division by zero is no fault. -/
def f32Div (a b : Word) : Word :=
  if isNaN a then quiet a
  else if isNaN b then quiet b
  else
    let s := sign a ^^ sign b
    if (isInf a && isInf b) || (isZero a && isZero b) then defaultNaN
    else if isInf a then infOf s
    else if isInf b then zeroOf s
    else if isZero b then infOf s
    else if isZero a then zeroOf s
    else round32 ((value a).div (value b))

/-- The extended reals that R163 compares on. -/
inductive Ext where
  | negInf
  | finite (r : Frac)
  | posInf
deriving DecidableEq, Repr

/-- The extended real of a pattern that is no NaN (R150, R163). -/
def extValue (x : Word) : Ext :=
  if isInf x then (if sign x then .negInf else .posInf) else .finite (value x)

/-- Less than on the extended reals: −∞ < every finite value < +∞ (R163). -/
def Ext.lt : Ext → Ext → Bool
  | .negInf, .negInf => false
  | .negInf, .finite _ => true
  | .negInf, .posInf => true
  | .finite _, .negInf => false
  | .finite r, .finite s => r.lt s
  | .finite _, .posInf => true
  | .posInf, _ => false

/-- Equal on the extended reals, where +0 and −0 are one number (R163). -/
def Ext.eq : Ext → Ext → Bool
  | .negInf, .negInf => true
  | .finite r, .finite s => r.eq s
  | .posInf, .posInf => true
  | _, _ => false

/-- `f32_unord` (R163). -/
def f32Unord (a b : Word) : Bool := isNaN a || isNaN b

/-- `f32_lt` (R163). -/
def f32Lt (a b : Word) : Bool := !f32Unord a b && (extValue a).lt (extValue b)

/-- `f32_eq` (R163). -/
def f32Eq (a b : Word) : Bool := !f32Unord a b && (extValue a).eq (extValue b)

/-- `f32_le` (R163). -/
def f32Le (a b : Word) : Bool := !f32Unord a b && ((extValue a).lt (extValue b) || (extValue a).eq (extValue b))

/-- `f32_min` (R164): the operand returned is returned bit for bit. -/
def f32Min (a b : Word) : Word := if f32Lt a b then a else b

/-- `f32_max` (R164). -/
def f32Max (a b : Word) : Word := if f32Lt b a then a else b

/-! ### The binary64 intermediate (R165, R166) -/

/-- `DEFAULT_NAN64` (R165). -/
def defaultNaN64 : DWord := 0xFFF8000000000000#64

/-- `quiet64` (R165): set bit 51. -/
def quiet64 (y : DWord) : DWord := y ||| 0x0008000000000000#64

/-- `y[63] ++ 0x7FF ++ 0^52` (R165). -/
def inf64Of (s : Bool) : DWord := if s then 0xFFF0000000000000#64 else 0x7FF0000000000000#64

/-- `y[63] ++ 0^63` (R165). -/
def zero64Of (s : Bool) : DWord := if s then 0x8000000000000000#64 else 0x0000000000000000#64

/-- `f64_from_f32` (R165): exact widening. The binary64 pattern of `value(x)` is written as `round64(value(x))`, which has
nothing to round (log entry 13). -/
def f64FromF32 (x : Word) : DWord :=
  if isNaN x then quiet64 (x.extractLsb' 31 1 ++ 0x7FF#11 ++ x.extractLsb' 0 23 ++ 0#29)
  else if isInf x then inf64Of (sign x)
  else if isZero x then zero64Of (sign x)
  else binary64.round 64 (value x)

/-- `f32_from_f64` (R165): narrowing, one rounding. -/
def f32FromF64 (y : DWord) : Word :=
  if binary64.isNaN y then quiet (y.extractLsb' 63 1 ++ 0xFF#8 ++ y.extractLsb' 29 23)
  else if binary64.isInf y then infOf (binary64.sign y)
  else if binary64.isZero y then zeroOf (binary64.sign y)
  else round32 (binary64.value y)

/-- `f64_div(1.0, y)` (R165). -/
def f64OneDiv (y : DWord) : DWord :=
  if binary64.isNaN y then quiet64 y
  else if binary64.isZero y then inf64Of (binary64.sign y)
  else if binary64.isInf y then zero64Of (binary64.sign y)
  else binary64.round 64 (Frac.div ⟨1, 1⟩ (binary64.value y))

/-- `f64_sqrt` (R165). -/
def f64Sqrt (y : DWord) : DWord :=
  if binary64.isNaN y then quiet64 y
  else if binary64.isZero y then y
  else if binary64.sign y then defaultNaN64
  else if binary64.isInf y then y
  else binary64.roundSqrt 64 (binary64.value y)

/-- `f32_rcp` (R166). -/
def f32Rcp (x : Word) : Word := f32FromF64 (f64OneDiv (f64FromF32 x))

/-- `f32_sqrt` (R166). -/
def f32Sqrt (x : Word) : Word := f32FromF64 (f64Sqrt (f64FromF32 x))

/-- `f32_rsqrt` (R166). -/
def f32Rsqrt (x : Word) : Word := f32FromF64 (f64OneDiv (f64Sqrt (f64FromF32 x)))

end Sys2Proof.Machine
end

