-- ==== Sys2Proof/Config.lean ====
section
/-! DEFINITION. What the spec leaves to the implementation: the two memory sizes (parameters IMEM_SIZE and DMEM_SIZE, R9) and
the free values a reset asserted by the host leaves in the registers and memories (R341). A size lives in the state
(`State.imemSize`, `State.dmemSize`) so that every statement over all states is a statement over all sizes; here stand the
condition R9 puts on a size and the size that `State.reset` carries. -/

namespace Sys2Proof.Config

/-- R9: "Each is a multiple of 16, at least 16, and at most 2^32." -/
def validSize (n : Nat) : Bool :=
  n % 16 == 0 && decide (16 ≤ n) && decide (n ≤ 2 ^ 32)

/-- DESIGN CHOICE (log entry 2), unsafe: `IMEM_SIZE` of `State.reset`, the largest size R9 allows. -/
def resetImemSize : Nat := 2 ^ 32

/-- DESIGN CHOICE (log entry 2), unsafe: `DMEM_SIZE` of `State.reset`, the largest size R9 allows. -/
def resetDmemSize : Nat := 2 ^ 32

/-- Free value (log entry 5), safe: what vector register `i` holds after the `n`-th reset the host asserts. R341: "after
reset their contents are unspecified, and a model assumes neither that they were cleared nor that they kept the values they
had before". -/
opaque resetVector : (n : Nat) → (i : Fin 16) → VWord

/-- Free value (log entry 5), safe: what scalar register `i` holds after the `n`-th reset the host asserts (R341). -/
opaque resetScalar : (n : Nat) → (i : Fin 16) → Word

/-- Free value (log entry 5), safe: the bytes of IMEM after the `n`-th reset the host asserts (R341). -/
opaque resetImem : (n : Nat) → List (Nat × Byte)

/-- Free value (log entry 5), safe: the bytes of DMEM after the `n`-th reset the host asserts (R341). -/
opaque resetDmem : (n : Nat) → List (Nat × Byte)

end Sys2Proof.Config
end

