-- ==== Sys2Proof/Syntax.lean ====
section
/-! DEFINITION. The V4LP's instructions as abstract syntax: one constructor per row of spec/opcode_table.json, with the
operands of the assembler forms of R104. A register operand is a register number that exists (R31, R35, R99); the
immediates of `LIL`, `LIH` and `VSHUF` are the encoded bit fields; the displacement of `VLD`, `VST` and `VPREF` is the signed
number the assembler writes and the hint of `VPREF` a number: `WellFormed.lean` says which of those fit their fields. -/

namespace Sys2Proof

/-- A vector register name `V0` .. `V15` (R31, R99). -/
structure VReg where
  num : Fin 16
deriving DecidableEq, Repr

/-- A scalar register name `S0` .. `S15` (R35, R99). -/
structure SReg where
  num : Fin 16
deriving DecidableEq, Repr

/-- A lane of the four-lane view: lane 0 is X, 1 is Y, 2 is Z, 3 is W (R12, R95). -/
inductive Lane where
  | x
  | y
  | z
  | w
deriving DecidableEq, Repr

/-- One instruction of the opcode map (R100), its operands in the order of the assembler syntax (R104). -/
inductive Instr where
  /-- `NOP` (R283). -/
  | nop
  /-- `HALT` (R293). -/
  | halt
  /-- `LIL Sd, imm16` (R281). -/
  | lil (sd : SReg) (imm16 : BitVec 16)
  /-- `LIH Sd, imm16` (R282). -/
  | lih (sd : SReg) (imm16 : BitVec 16)
  /-- `VMAKE Vd, Sx, Sy, Sz, Sw` (R131). -/
  | vmake (vd : VReg) (sx sy sz sw : SReg)
  /-- `VEXT Sd, Va, lane` (R132). -/
  | vext (sd : SReg) (va : VReg) (lane : Lane)
  /-- `VINS Vd, Sa, lane` (R133). -/
  | vins (vd : VReg) (sa : SReg) (lane : Lane)
  /-- `VAND Vd, Va, Vb` (R141). -/
  | vand (vd va vb : VReg)
  /-- `VOR Vd, Va, Vb` (R142). -/
  | vor (vd va vb : VReg)
  /-- `VXOR Vd, Va, Vb` (R143). -/
  | vxor (vd va vb : VReg)
  /-- `VANDN Vd, Va, Vb` (R144). -/
  | vandn (vd va vb : VReg)
  /-- `VADD Vd, Va, Vb` (R170). -/
  | vadd (vd va vb : VReg)
  /-- `VSUB Vd, Va, Vb` (R171). -/
  | vsub (vd va vb : VReg)
  /-- `VMUL Vd, Va, Vb` (R172). -/
  | vmul (vd va vb : VReg)
  /-- `VDIV Vd, Va, Vb` (R173). -/
  | vdiv (vd va vb : VReg)
  /-- `VMIN Vd, Va, Vb` (R174). -/
  | vmin (vd va vb : VReg)
  /-- `VMAX Vd, Va, Vb` (R175). -/
  | vmax (vd va vb : VReg)
  /-- `VRCP Vd, Va` (R176). -/
  | vrcp (vd va : VReg)
  /-- `VSQRT Vd, Va` (R177). -/
  | vsqrt (vd va : VReg)
  /-- `VRSQRT Vd, Va` (R178). -/
  | vrsqrt (vd va : VReg)
  /-- `VHADD Vd, Va, Vb` (R191). -/
  | vhadd (vd va vb : VReg)
  /-- `VHSUB Vd, Va, Vb` (R192). -/
  | vhsub (vd va vb : VReg)
  /-- `VADDSUB Vd, Va, Vb` (R193). -/
  | vaddsub (vd va vb : VReg)
  /-- `VDUPL Vd, Va` (R201). -/
  | vdupl (vd va : VReg)
  /-- `VDUPH Vd, Va` (R202). -/
  | vduph (vd va : VReg)
  /-- `VILVL Vd, Va, Vb` (R203). -/
  | vilvl (vd va vb : VReg)
  /-- `VILVH Vd, Va, Vb` (R204). -/
  | vilvh (vd va vb : VReg)
  /-- `VSHUF Vd, Va, sel` (R205). -/
  | vshuf (vd va : VReg) (sel : BitVec 8)
  /-- `VCMPEQ Vd, Va, Vb` (R222). -/
  | vcmpeq (vd va vb : VReg)
  /-- `VCMPLT Vd, Va, Vb` (R223). -/
  | vcmplt (vd va vb : VReg)
  /-- `VCMPLE Vd, Va, Vb` (R224). -/
  | vcmple (vd va vb : VReg)
  /-- `VCMPUNORD Vd, Va, Vb` (R225). -/
  | vcmpunord (vd va vb : VReg)
  /-- `VCMPNEQ Vd, Va, Vb` (R226). -/
  | vcmpneq (vd va vb : VReg)
  /-- `VCMPNLT Vd, Va, Vb` (R227). -/
  | vcmpnlt (vd va vb : VReg)
  /-- `VCMPNLE Vd, Va, Vb` (R228). -/
  | vcmpnle (vd va vb : VReg)
  /-- `VCMPORD Vd, Va, Vb` (R229). -/
  | vcmpord (vd va vb : VReg)
  /-- `VCAST.F32 Vd, Va` (R242). -/
  | vcastF32 (vd va : VReg)
  /-- `VCAST.S64 Vd, Va` (R243). -/
  | vcastS64 (vd va : VReg)
  /-- `VCAST.U64 Vd, Va` (R244). -/
  | vcastU64 (vd va : VReg)
  /-- `VCAST.S32 Vd, Va` (R245). -/
  | vcastS32 (vd va : VReg)
  /-- `VCAST.U32 Vd, Va` (R246). -/
  | vcastU32 (vd va : VReg)
  /-- `VCAST.S16 Vd, Va` (R247). -/
  | vcastS16 (vd va : VReg)
  /-- `VCAST.U16 Vd, Va` (R248). -/
  | vcastU16 (vd va : VReg)
  /-- `VCAST.S8 Vd, Va` (R249). -/
  | vcastS8 (vd va : VReg)
  /-- `VCAST.U8 Vd, Va` (R250). -/
  | vcastU8 (vd va : VReg)
  /-- `VLD Vt, off(Sb)` (R260). -/
  | vld (vt : VReg) (sb : SReg) (off : Int)
  /-- `VST Vt, off(Sb)` (R261). -/
  | vst (vt : VReg) (sb : SReg) (off : Int)
  /-- `VPREF hint, off(Sb)` (R262). -/
  | vpref (hint : Nat) (sb : SReg) (off : Int)
deriving DecidableEq, Repr

end Sys2Proof
end

