-- ==== Sys2Proof/Machine/State.lean ====
section
/-! DEFINITION. The state of the V4LP (spec/10_state.md, spec/20_memory.md R60-R62): plain data, every piece of state the spec
names and nothing hidden (R45), the reasons a step of the model stops, and the state right after reset (R46). -/

namespace Sys2Proof.Machine

/-- STATUS.STATE (R43). -/
inductive SeqState where
  /-- Never started since reset. -/
  | idle
  /-- The sequencer is stepping. -/
  | running
  /-- A `HALT` retired (R293). -/
  | halted
  /-- A fault stopped the sequencer (R306). -/
  | faulted
deriving DecidableEq, Repr

/-- FAULT_CAUSE.CAUSE (R44, R300): the five codes the V4LP writes; codes 5 .. 15 are "reserved and never written". -/
inductive Cause where
  /-- 0: no fault since reset or the last START. -/
  | none
  /-- 1: the word matches no row of the opcode map. -/
  | illegalInstruction
  /-- 2: pc + 4 > IMEM_SIZE. -/
  | fetchFault
  /-- 3: EA[3:0] is not 0. -/
  | misalignedAccess
  /-- 4: EA + 16 > DMEM_SIZE. -/
  | accessFault
deriving DecidableEq, Repr

/-- A byte memory: (address, byte) pairs, canonical when `Memory.wf` holds (Machine/Memory.lean). -/
abbrev Memory : Type := List Host.Cell

/-- Why a step or a host operation of the MODEL stops. The V4LP's own faults (R300) are not here: R306 gives them an entry,
so they are next states (`takeFault`, log entry 7). -/
inductive Fault where
  /-- Raised by `step` while STATE is IDLE, HALTED or FAULTED: "the sequencer does not step" (R316), so there is no next
  state. Safe (log entry 4). -/
  | sequencerStopped
  /-- Raised by a host access to a byte of IMEM or DMEM that does not exist (R61, R62, R348). Safe (log entry 8). -/
  | hostNoSuchByte
deriving DecidableEq, Repr

/-- What the model gives no meaning. -/
inductive Refusal where
  /-- Raised by an arm of `exec` whose instruction has no meaning yet; no arm is left with it. Safe. -/
  | notModelled (mnemonic : String)
  /-- Raised by a host access to V, S, IMEM or DMEM while STATE = RUNNING: "The spec gives such an access no meaning: a model
  has no host move for it" (R352). Safe (log entry 8). -/
  | hostAccessWhileRunning
deriving DecidableEq, Repr

/-- The machine's state. STATUS, PC and CTRL of the control window are computed from it (R41-R43). -/
structure State where
  /-- `V0` .. `V15` (R31). -/
  vregs : Vector VWord 16
  /-- `S0` .. `S15` (R35). -/
  sregs : Vector Word 16
  /-- The program counter, also the host's PC register (R38, R43). -/
  pc : Word
  /-- STATUS.STATE (R43). -/
  seq : SeqState
  /-- START_PC, bits 1..0 hard-wired 0 by its one writer, `State.setStartPc` (R43). -/
  startPc : Word
  /-- FAULT_CAUSE.CAUSE (R44). -/
  faultCause : Cause
  /-- FAULT_PC (R44). -/
  faultPc : Word
  /-- FAULT_INFO (R44). -/
  faultInfo : Word
  /-- Instruction memory (R61). -/
  imem : Memory
  /-- Data memory (R62). -/
  dmem : Memory
  /-- The parameter IMEM_SIZE (R9); nothing writes it. -/
  imemSize : Nat
  /-- The parameter DMEM_SIZE (R9); nothing writes it. -/
  dmemSize : Nat
  /-- The MODEL's own counter, not the spec's: how many resets the host has asserted; selects the free contents of R341
  (log entry 5). -/
  resets : Nat
deriving DecidableEq, Repr

/-- Right after reset (R46): STATE = IDLE; pc, START_PC and the fault registers 0; no memory byte listed. The register
contents (log entry 1), the sizes (log entry 2), what an unlisted byte reads as (log entry 3) and the counter (log entry 5)
are the model's DESIGN CHOICES. -/
def State.reset : State where
  vregs := Vector.replicate 16 0
  sregs := Vector.replicate 16 0
  pc := 0
  seq := .idle
  startPc := 0
  faultCause := .none
  faultPc := 0
  faultInfo := 0
  imem := []
  dmem := []
  imemSize := Config.resetImemSize
  dmemSize := Config.resetDmemSize
  resets := 0

end Sys2Proof.Machine
end

