-- ==== Sys2Proof/Machine/Memory.lean ====
section
/-! DEFINITION. Byte memory (spec/20_memory.md R60-R66, spec/00_scope.md R14): one list of cells per address space, kept in one
canonical form, read and written byte by byte; the wider accesses of R14 are little-endian and decided here once. -/

namespace Sys2Proof.Machine

/-- What a byte that nothing has written reads as, in IMEM and DMEM. DESIGN CHOICE (log entry 3), unsafe: R46 leaves it
unspecified. -/
def Memory.unlisted : Byte := 0

/-- The canonical form: addresses strictly rising, and no cell that holds what an unlisted address reads as. -/
abbrev Memory.wf (m : Memory) : Prop :=
  m.Pairwise (fun c d => c.1 < d.1) ∧ ∀ c ∈ m, c.2 ≠ Memory.unlisted

/-- Every listed address lies below `size`: only bytes that exist are listed (R61, R62). -/
abbrev Memory.within (m : Memory) (size : Nat) : Prop :=
  ∀ c ∈ m, c.1 < size

/-- The byte at an address. -/
def Memory.read (m : Memory) (a : Nat) : Byte :=
  match m with
  | [] => Memory.unlisted
  | (b, x) :: rest => if b = a then x else Memory.read rest a

/-- List a cell, before the first listed address above it. -/
def Memory.insert (m : Memory) (a : Nat) (x : Byte) : Memory :=
  match m with
  | [] => [(a, x)]
  | (b, y) :: rest => if a < b then (a, x) :: (b, y) :: rest else (b, y) :: Memory.insert rest a x

/-- Write a byte; writing what an unlisted address reads as leaves the address unlisted. -/
def Memory.write (m : Memory) (a : Nat) (x : Byte) : Memory :=
  let others := m.filter (fun c => c.1 != a)
  if x = Memory.unlisted then others else Memory.insert others a x

/-- The `n` bytes at `a` .. `a + n - 1` as a little-endian number (`MemRead`, R14). -/
def Memory.readLE (m : Memory) (a : Nat) : Nat → Nat
  | 0 => 0
  | n + 1 => (m.read a).toNat + 256 * Memory.readLE m (a + 1) n

/-- Store the `n` low bytes of `v` at `a` .. `a + n - 1`, little-endian (`MemWrite`, R14). -/
def Memory.writeLE (m : Memory) (a v : Nat) : Nat → Memory
  | 0 => m
  | n + 1 => Memory.writeLE (m.write a (BitVec.ofNat 8 v)) (a + 1) (v / 256) n

/-- `MemRead(a, 16)` (R14, R63): the byte at `a + k` is bits 8k+7..8k. -/
def Memory.readVector (m : Memory) (a : Nat) : VWord :=
  BitVec.ofNat 128 (m.readLE a 16)

/-- `MemWrite(a, 16, v)` (R14, R63). -/
def Memory.writeVector (m : Memory) (a : Nat) (v : VWord) : Memory :=
  m.writeLE a v.toNat 16

/-- `IFetch(a)` (R14, R64): the 4 bytes at `a`, little-endian. -/
def Memory.readWord (m : Memory) (a : Nat) : Word :=
  BitVec.ofNat 32 (m.readLE a 4)

/-- A word laid out little-endian (R64): what the host does when it loads one instruction. -/
def Memory.writeWord (m : Memory) (a : Nat) (w : Word) : Memory :=
  m.writeLE a w.toNat 4

/-- The memory with these bytes, of which only those below `size` exist. -/
def Memory.ofCells (size : Nat) (cells : List Host.Cell) : Memory :=
  cells.foldl (fun m c => if c.1 < size then m.write c.1 c.2 else m) []

end Sys2Proof.Machine
end

