-- ==== Sys2Proof/Machine/Operands.lean ====
section
/-! DEFINITION. The operand forms: lanes of a vector (spec/00_scope.md R12), the lane-wise shapes of the families 42-45, the
selector of a shuffle (R94), the scalar immediates (R93, R281, R282) and the effective address (R92, R263). -/

namespace Sys2Proof.Machine

/-- The number of a lane: X 0, Y 1, Z 2, W 3 (R12). -/
def laneNumber : Lane → Nat
  | .x => 0
  | .y => 1
  | .z => 2
  | .w => 3

/-- `lane(v, k)` = `v[32k+31 : 32k]` (R12). -/
def lane (v : VWord) (k : Lane) : Word :=
  v.extractLsb' (32 * laneNumber k) 32

/-- `lanes(x0, x1, x2, x3)` = `x3 ++ x2 ++ x1 ++ x0` (R12). -/
def lanes (x0 x1 x2 x3 : Word) : VWord :=
  x3 ++ x2 ++ x1 ++ x0

/-- `setlane(v, k, x)`: lane k replaced by `x`, every other bit unchanged (R12). -/
def setLane (v : VWord) (k : Lane) (x : Word) : VWord :=
  lanes (if k = .x then x else lane v .x) (if k = .y then x else lane v .y)
    (if k = .z then x else lane v .z) (if k = .w then x else lane v .w)

/-- `for k in 0..3: lane(V[vd], k) <- f(lane(V[va], k))` (R15). -/
def mapLanes (f : Word → Word) (a : VWord) : VWord :=
  lanes (f (lane a .x)) (f (lane a .y)) (f (lane a .z)) (f (lane a .w))

/-- `for k in 0..3: lane(V[vd], k) <- f(lane(V[va], k), lane(V[vb], k))` (R15). -/
def mapLanes₂ (f : Word → Word → Word) (a b : VWord) : VWord :=
  lanes (f (lane a .x) (lane b .x)) (f (lane a .y) (lane b .y)) (f (lane a .z) (lane b .z)) (f (lane a .w) (lane b .w))

/-- The lane a 2-bit index selects (R94, R95). -/
def laneAt (i : BitVec 2) : Lane :=
  if i = 0#2 then .x else if i = 1#2 then .y else if i = 2#2 then .z else .w

/-- R94: destination lane d takes source lane `sel[2d+1:2d]`. -/
def selected (sel : BitVec 8) (d : Lane) : Lane :=
  laneAt (sel.extractLsb' (2 * laneNumber d) 2)

/-- R93: `zext_32(imm16)`, the value of `LIL`. -/
def zeroExtend16 (imm16 : BitVec 16) : Word :=
  imm16.setWidth 32

/-- R282: `imm16 ++ old[15:0]`, the value of `LIH`. -/
def replaceHigh16 (imm16 : BitVec 16) (old : Word) : Word :=
  imm16 ++ old.extractLsb' 0 16

/-- R263: `EA = (base + sext_32(imm16)) mod 2^32`; the displacement is the signed number of the assembler form (R92). -/
def effectiveAddress (base : Word) (off : Int) : Word :=
  base + BitVec.ofInt 32 off

end Sys2Proof.Machine
end

