-- ==== Sys2Proof/Machine/Ops.lean ====
section
/-! DEFINITION. The named operations over registers, memory and control state that every meaning is made of: reading and
writing the register files (R31, R35), retiring an instruction (R38), fetching a word (R301), the access check of `VLD` and
`VST` (R264, R303), TAKING A FAULT (R306), stopping (R293) and, in the place of a return from an exception, which the V4LP does
not have (R307), the restart by START (R345). -/

namespace Sys2Proof.Machine

/-! ### Registers (R12, R31, R35) -/

/-- `V[r]`. -/
def State.readV (s : State) (r : VReg) : VWord := s.vregs[r.num]

/-- `S[r]`. -/
def State.readS (s : State) (r : SReg) : Word := s.sregs[r.num]

/-- `V[r] <- x`; no register is hard-wired (R31). -/
def State.writeV (s : State) (r : VReg) (x : VWord) : State := { s with vregs := s.vregs.set r.num x }

/-- `S[r] <- x`; no register is hard-wired (R35). -/
def State.writeS (s : State) (r : SReg) (x : Word) : State := { s with sregs := s.sregs.set r.num x }

/-! ### Retiring (R38) -/

/-- `pc <- (pc + 4) mod 2^32` (R38, R39). -/
def State.advance (s : State) : State := { s with pc := s.pc + 4#32 }

/-- Write a vector result, which was computed from the state before (R361), and advance. -/
def State.retireV (s : State) (vd : VReg) (x : VWord) : State := (s.writeV vd x).advance

/-- Write a scalar result, which was computed from the state before (R361), and advance. -/
def State.retireS (s : State) (sd : SReg) (x : Word) : State := (s.writeS sd x).advance

/-- Write a vector to the 16 bytes of DMEM at `ea` (R261) and advance. -/
def State.retireStore (s : State) (ea : Word) (x : VWord) : State :=
  { s with dmem := s.dmem.writeVector ea.toNat x }.advance

/-! ### Stopping and starting -/

/-- The code FAULT_CAUSE reports (R300). -/
def causeCode : Cause → BitVec 4
  | .none => 0#4
  | .illegalInstruction => 1#4
  | .fetchFault => 2#4
  | .misalignedAccess => 3#4
  | .accessFault => 4#4

/-- Fault entry (R306): record cause, pc and info, and stop; pc, registers and memory keep their values (R304). -/
def takeFault (cause : Cause) (info : Word) (s : State) : State :=
  { s with faultCause := cause, faultPc := s.pc, faultInfo := info, seq := .faulted }

/-- `HALT` (R293): advance, and stop. -/
def State.halt (s : State) : State := { s.advance with seq := .halted }

/-- The START action on a sequencer that is not running (R345). -/
def State.start (s : State) : State :=
  { s with pc := s.startPc, faultCause := .none, faultPc := 0, faultInfo := 0, seq := .running }

/-- A write of START_PC: bits 1..0 are hard-wired 0 (R43); pc does not change (R346). -/
def State.setStartPc (s : State) (x : Word) : State := { s with startPc := x &&& 0xFFFFFFFC#32 }

/-! ### Memory accesses -/

/-- `pc + 4 > IMEM_SIZE` on unbounded integers (R69, R301). -/
def State.fetchFaults (s : State) : Bool := decide (s.imemSize < s.pc.toNat + 4)

/-- `IFetch(pc)` (R14, R301). -/
def State.fetchWord (s : State) : Word := s.imem.readWord s.pc.toNat

/-- The checks of `VLD` and `VST` in the order of R264 and R303: alignment (R67), then range on unbounded integers (R68). -/
def State.accessCheck (s : State) (ea : Word) : Option Cause :=
  if ea.extractLsb' 0 4 ≠ 0#4 then some .misalignedAccess
  else if s.dmemSize < ea.toNat + 16 then some .accessFault
  else none

/-- The effective address of `off(Sb)` (R263). -/
def State.address (s : State) (sb : SReg) (off : Int) : Word := effectiveAddress (s.readS sb) off

end Sys2Proof.Machine
end

