-- ==== Sys2Proof/Machine/Arithmetic.lean ====
section
/-! DEFINITION. Lane-wise binary32 arithmetic (spec/42_arithmetic.md R170-R178): lane k of the destination depends only on lane k of the
sources; no flag and no fault (R156). -/

namespace Sys2Proof.Machine

/-- `VADD Vd, Va, Vb` (R170): lane-wise add. -/
def execVadd (vd va vb : VReg) (s : State) : Host.Outcome State Fault Refusal :=
  .next (s.retireV vd (mapLanes₂ f32Add (s.readV va) (s.readV vb)))

/-- `VSUB Vd, Va, Vb` (R171): lane-wise subtract, a − b. -/
def execVsub (vd va vb : VReg) (s : State) : Host.Outcome State Fault Refusal :=
  .next (s.retireV vd (mapLanes₂ f32Sub (s.readV va) (s.readV vb)))

/-- `VMUL Vd, Va, Vb` (R172): lane-wise multiply. -/
def execVmul (vd va vb : VReg) (s : State) : Host.Outcome State Fault Refusal :=
  .next (s.retireV vd (mapLanes₂ f32Mul (s.readV va) (s.readV vb)))

/-- `VDIV Vd, Va, Vb` (R173): lane-wise divide, a ÷ b; division by zero is not a fault. -/
def execVdiv (vd va vb : VReg) (s : State) : Host.Outcome State Fault Refusal :=
  .next (s.retireV vd (mapLanes₂ f32Div (s.readV va) (s.readV vb)))

/-- `VMIN Vd, Va, Vb` (R174): lane-wise minimum. -/
def execVmin (vd va vb : VReg) (s : State) : Host.Outcome State Fault Refusal :=
  .next (s.retireV vd (mapLanes₂ f32Min (s.readV va) (s.readV vb)))

/-- `VMAX Vd, Va, Vb` (R175): lane-wise maximum. -/
def execVmax (vd va vb : VReg) (s : State) : Host.Outcome State Fault Refusal :=
  .next (s.retireV vd (mapLanes₂ f32Max (s.readV va) (s.readV vb)))

/-- `VRCP Vd, Va` (R176): lane-wise reciprocal. -/
def execVrcp (vd va : VReg) (s : State) : Host.Outcome State Fault Refusal :=
  .next (s.retireV vd (mapLanes f32Rcp (s.readV va)))

/-- `VSQRT Vd, Va` (R177): lane-wise square root. -/
def execVsqrt (vd va : VReg) (s : State) : Host.Outcome State Fault Refusal :=
  .next (s.retireV vd (mapLanes f32Sqrt (s.readV va)))

/-- `VRSQRT Vd, Va` (R178): lane-wise reciprocal square root. -/
def execVrsqrt (vd va : VReg) (s : State) : Host.Outcome State Fault Refusal :=
  .next (s.retireV vd (mapLanes f32Rsqrt (s.readV va)))

end Sys2Proof.Machine
end

