-- ==== Sys2Proof/Machine/Bitwise.lean ====
section
/-! DEFINITION. Bitwise logic on raw bits (spec/41_bitwise.md R140-R144). There is no shift instruction (R145). -/

namespace Sys2Proof.Machine

/-- `VAND Vd, Va, Vb` (R141): bitwise AND. -/
def execVand (vd va vb : VReg) (s : State) : Host.Outcome State Fault Refusal :=
  .next (s.retireV vd (s.readV va &&& s.readV vb))

/-- `VOR Vd, Va, Vb` (R142): bitwise OR. -/
def execVor (vd va vb : VReg) (s : State) : Host.Outcome State Fault Refusal :=
  .next (s.retireV vd (s.readV va ||| s.readV vb))

/-- `VXOR Vd, Va, Vb` (R143): bitwise exclusive OR. -/
def execVxor (vd va vb : VReg) (s : State) : Host.Outcome State Fault Refusal :=
  .next (s.retireV vd (s.readV va ^^^ s.readV vb))

/-- `VANDN Vd, Va, Vb` (R144): AndNot, the first operand complemented. -/
def execVandn (vd va vb : VReg) (s : State) : Host.Outcome State Fault Refusal :=
  .next (s.retireV vd (~~~s.readV va &&& s.readV vb))

end Sys2Proof.Machine
end

