-- ==== Sys2Proof/Machine/Flags.lean ====
section
/-! DEFINITION. The V4LP has no status flags, condition codes or predicate registers, and no floating-point status (spec/10_state.md
R40, spec/42_arithmetic.md R156): no instruction computes a flag. What stands for a condition is a mask lane (R220), computed
here. -/

namespace Sys2Proof.Machine

/-- R220: `MASK(c)` is all ones if `c` is true and all zeros if `c` is false. -/
def maskLane (c : Bool) : Word :=
  if c then 0xFFFFFFFF#32 else 0x00000000#32

end Sys2Proof.Machine
end

