-- ==== Sys2Proof/Machine/Compare.lean ====
section
/-! DEFINITION. Comparisons (spec/45_compare.md R220-R230): one mask lane per lane; no flag and no exception, for signalling NaNs too. -/

namespace Sys2Proof.Machine

/-- The common form of the eight comparisons (R221): the mask of the relation, lane by lane. -/
def compareLanes (p : Word → Word → Bool) (a b : VWord) : VWord :=
  mapLanes₂ (fun x y => maskLane (p x y)) a b

/-- `VCMPEQ Vd, Va, Vb` (R222): Equal. -/
def execVcmpeq (vd va vb : VReg) (s : State) : Host.Outcome State Fault Refusal :=
  .next (s.retireV vd (compareLanes f32Eq (s.readV va) (s.readV vb)))

/-- `VCMPLT Vd, Va, Vb` (R223): LessThan. -/
def execVcmplt (vd va vb : VReg) (s : State) : Host.Outcome State Fault Refusal :=
  .next (s.retireV vd (compareLanes f32Lt (s.readV va) (s.readV vb)))

/-- `VCMPLE Vd, Va, Vb` (R224): LessEqual. -/
def execVcmple (vd va vb : VReg) (s : State) : Host.Outcome State Fault Refusal :=
  .next (s.retireV vd (compareLanes f32Le (s.readV va) (s.readV vb)))

/-- `VCMPUNORD Vd, Va, Vb` (R225): Unordered. -/
def execVcmpunord (vd va vb : VReg) (s : State) : Host.Outcome State Fault Refusal :=
  .next (s.retireV vd (compareLanes f32Unord (s.readV va) (s.readV vb)))

/-- `VCMPNEQ Vd, Va, Vb` (R226): NotEqual, the negation of Equal. -/
def execVcmpneq (vd va vb : VReg) (s : State) : Host.Outcome State Fault Refusal :=
  .next (s.retireV vd (compareLanes (fun x y => !f32Eq x y) (s.readV va) (s.readV vb)))

/-- `VCMPNLT Vd, Va, Vb` (R227): NotLessThan, the negation of LessThan. -/
def execVcmpnlt (vd va vb : VReg) (s : State) : Host.Outcome State Fault Refusal :=
  .next (s.retireV vd (compareLanes (fun x y => !f32Lt x y) (s.readV va) (s.readV vb)))

/-- `VCMPNLE Vd, Va, Vb` (R228): NotLessEqual, the negation of LessEqual. -/
def execVcmpnle (vd va vb : VReg) (s : State) : Host.Outcome State Fault Refusal :=
  .next (s.retireV vd (compareLanes (fun x y => !f32Le x y) (s.readV va) (s.readV vb)))

/-- `VCMPORD Vd, Va, Vb` (R229): Ordered. -/
def execVcmpord (vd va vb : VReg) (s : State) : Host.Outcome State Fault Refusal :=
  .next (s.retireV vd (compareLanes (fun x y => !f32Unord x y) (s.readV va) (s.readV vb)))

end Sys2Proof.Machine
end

