-- ==== Sys2Proof/Machine/Construction.lean ====
section
/-! DEFINITION. Construction and lane access (spec/40_construction_access.md R131-R133): raw 32-bit patterns, never interpreted. -/

namespace Sys2Proof.Machine

/-- `VMAKE Vd, Sx, Sy, Sz, Sw` (R131): the four scalar patterns, bit for bit. -/
def execVmake (vd : VReg) (sx sy sz sw : SReg) (s : State) : Host.Outcome State Fault Refusal :=
  .next (s.retireV vd (lanes (s.readS sx) (s.readS sy) (s.readS sz) (s.readS sw)))

/-- `VEXT Sd, Va, lane` (R132): the raw pattern of one lane. -/
def execVext (sd : SReg) (va : VReg) (l : Lane) (s : State) : Host.Outcome State Fault Refusal :=
  .next (s.retireS sd (lane (s.readV va) l))

/-- `VINS Vd, Sa, lane` (R133): one lane of Vd replaced, the other three unchanged. -/
def execVins (vd : VReg) (sa : SReg) (l : Lane) (s : State) : Host.Outcome State Fault Refusal :=
  .next (s.retireV vd (setLane (s.readV vd) l (s.readS sa)))

end Sys2Proof.Machine
end

