-- ==== Sys2Proof/Machine/Horizontal.lean ====
section
/-! DEFINITION. Horizontal operations (spec/43_horizontal.md R190-R193). -/

namespace Sys2Proof.Machine

/-- The four results of a horizontal operation (R191, R192): adjacent lanes of `a`, then of `b`, the lower-numbered lane
first (R190). -/
def pairLanes (f : Word → Word → Word) (a b : VWord) : VWord :=
  lanes (f (lane a .x) (lane a .y)) (f (lane a .z) (lane a .w)) (f (lane b .x) (lane b .y)) (f (lane b .z) (lane b .w))

/-- R193: even lanes subtract, odd lanes add. -/
def addSubLanes (a b : VWord) : VWord :=
  lanes (f32Sub (lane a .x) (lane b .x)) (f32Add (lane a .y) (lane b .y)) (f32Sub (lane a .z) (lane b .z))
    (f32Add (lane a .w) (lane b .w))

/-- `VHADD Vd, Va, Vb` (R191): horizontal add. -/
def execVhadd (vd va vb : VReg) (s : State) : Host.Outcome State Fault Refusal :=
  .next (s.retireV vd (pairLanes f32Add (s.readV va) (s.readV vb)))

/-- `VHSUB Vd, Va, Vb` (R192): horizontal subtract. -/
def execVhsub (vd va vb : VReg) (s : State) : Host.Outcome State Fault Refusal :=
  .next (s.retireV vd (pairLanes f32Sub (s.readV va) (s.readV vb)))

/-- `VADDSUB Vd, Va, Vb` (R193): alternating subtract and add. -/
def execVaddsub (vd va vb : VReg) (s : State) : Host.Outcome State Fault Refusal :=
  .next (s.retireV vd (addSubLanes (s.readV va) (s.readV vb)))

end Sys2Proof.Machine
end

