-- ==== Sys2Proof/Machine/LoadStore.lean ====
section
/-! DEFINITION. Aligned 16-byte load and store, and prefetch (spec/47_load_store.md R260-R265). -/

namespace Sys2Proof.Machine

/-- `VLD Vt, off(Sb)` (R260): 16 bytes of DMEM, or the fault of the access check. -/
def execVld (vt : VReg) (sb : SReg) (off : Int) (s : State) : Host.Outcome State Fault Refusal :=
  let ea := s.address sb off
  match s.accessCheck ea with
  | some cause => .next (takeFault cause ea s)
  | none => .next (s.retireV vt (s.dmem.readVector ea.toNat))

/-- `VST Vt, off(Sb)` (R261): all 16 bytes or none. -/
def execVst (vt : VReg) (sb : SReg) (off : Int) (s : State) : Host.Outcome State Fault Refusal :=
  let ea := s.address sb off
  match s.accessCheck ea with
  | some cause => .next (takeFault cause ea s)
  | none => .next (s.retireStore ea (s.readV vt))

/-- `VPREF hint, off(Sb)` (R262): the effective address is computed and discarded; no fault for any address, no effect for
any hint (R98, R103). -/
def execVpref (_hint : Nat) (sb : SReg) (off : Int) (s : State) : Host.Outcome State Fault Refusal :=
  let _ea := s.address sb off
  .next s.advance

end Sys2Proof.Machine
end

