-- ==== Sys2Proof/Machine/Permute.lean ====
section
/-! DEFINITION. Duplicate, interleave and shuffle (spec/44_permute.md R200-R206): whole lane patterns are moved, none is computed on. -/

namespace Sys2Proof.Machine

/-- R201: `(v.X, v.X, v.Z, v.Z)`. -/
def duplicateLow (v : VWord) : VWord := lanes (lane v .x) (lane v .x) (lane v .z) (lane v .z)

/-- R202: `(v.Y, v.Y, v.W, v.W)`. -/
def duplicateHigh (v : VWord) : VWord := lanes (lane v .y) (lane v .y) (lane v .w) (lane v .w)

/-- R203: `(a.X, b.X, a.Y, b.Y)`. -/
def interleaveLow (a b : VWord) : VWord := lanes (lane a .x) (lane b .x) (lane a .y) (lane b .y)

/-- R204: `(a.Z, b.Z, a.W, b.W)`. -/
def interleaveHigh (a b : VWord) : VWord := lanes (lane a .z) (lane b .z) (lane a .w) (lane b .w)

/-- R205: destination lane d takes the source lane `sel[2d+1:2d]`. -/
def shuffle (v : VWord) (sel : BitVec 8) : VWord :=
  lanes (lane v (selected sel .x)) (lane v (selected sel .y)) (lane v (selected sel .z)) (lane v (selected sel .w))

/-- `VDUPL Vd, Va` (R201). -/
def execVdupl (vd va : VReg) (s : State) : Host.Outcome State Fault Refusal :=
  .next (s.retireV vd (duplicateLow (s.readV va)))

/-- `VDUPH Vd, Va` (R202). -/
def execVduph (vd va : VReg) (s : State) : Host.Outcome State Fault Refusal :=
  .next (s.retireV vd (duplicateHigh (s.readV va)))

/-- `VILVL Vd, Va, Vb` (R203): two sources, not a shuffle of one (C2). -/
def execVilvl (vd va vb : VReg) (s : State) : Host.Outcome State Fault Refusal :=
  .next (s.retireV vd (interleaveLow (s.readV va) (s.readV vb)))

/-- `VILVH Vd, Va, Vb` (R204). -/
def execVilvh (vd va vb : VReg) (s : State) : Host.Outcome State Fault Refusal :=
  .next (s.retireV vd (interleaveHigh (s.readV va) (s.readV vb)))

/-- `VSHUF Vd, Va, sel` (R205): every selector is legal (R94). -/
def execVshuf (vd va : VReg) (sel : BitVec 8) (s : State) : Host.Outcome State Fault Refusal :=
  .next (s.retireV vd (shuffle (s.readV va) sel))

end Sys2Proof.Machine
end

