-- ==== Sys2Proof/Machine/Reinterpret.lean ====
section
/-! DEFINITION. Bit-pattern reinterpretation (spec/46_reinterpret.md R240-R251): a copy whose tag names a view. -/

namespace Sys2Proof.Machine

/-- The nine views of a vector (R240). -/
inductive View where
  | f32
  | s64
  | u64
  | s32
  | u32
  | s16
  | u16
  | s8
  | u8
deriving DecidableEq, Repr

/-- The tag of a view (R97, R240). -/
def viewTag : View → BitVec 4
  | .f32 => 0#4
  | .s64 => 1#4
  | .u64 => 2#4
  | .s32 => 3#4
  | .u32 => 4#4
  | .s16 => 5#4
  | .u16 => 6#4
  | .s8 => 7#4
  | .u8 => 8#4

/-- The lane width of a view in bits (R240). -/
def viewWidth : View → Nat
  | .f32 | .s32 | .u32 => 32
  | .s64 | .u64 => 64
  | .s16 | .u16 => 16
  | .s8 | .u8 => 8

/-- How many lanes a view has (R240). -/
def viewLanes (t : View) : Nat := 128 / viewWidth t

/-- The raw bits of lane `j` of a view: `v[w·j + w − 1 : w·j]` (R240). -/
def viewLane (t : View) (v : VWord) (j : Nat) : BitVec (viewWidth t) :=
  v.extractLsb' (viewWidth t * j) (viewWidth t)

/-- Lane `j` as the integer a signed or unsigned view reads (R240); a binary32 lane as its raw bits (R20). -/
def viewInteger (t : View) (v : VWord) (j : Nat) : Int :=
  match t with
  | .s64 | .s32 | .s16 | .s8 => (viewLane t v j).toInt
  | .f32 | .u64 | .u32 | .u16 | .u8 => ((viewLane t v j).toNat : Int)

/-- The common semantics of the nine casts (R241): all 128 bits copied; the view is not read by the datapath. -/
def castTo (_view : View) (v : VWord) : VWord := v

/-- `VCAST.F32 Vd, Va` (R242). -/
def execVcastF32 (vd va : VReg) (s : State) : Host.Outcome State Fault Refusal :=
  .next (s.retireV vd (castTo .f32 (s.readV va)))

/-- `VCAST.S64 Vd, Va` (R243). -/
def execVcastS64 (vd va : VReg) (s : State) : Host.Outcome State Fault Refusal :=
  .next (s.retireV vd (castTo .s64 (s.readV va)))

/-- `VCAST.U64 Vd, Va` (R244). -/
def execVcastU64 (vd va : VReg) (s : State) : Host.Outcome State Fault Refusal :=
  .next (s.retireV vd (castTo .u64 (s.readV va)))

/-- `VCAST.S32 Vd, Va` (R245). -/
def execVcastS32 (vd va : VReg) (s : State) : Host.Outcome State Fault Refusal :=
  .next (s.retireV vd (castTo .s32 (s.readV va)))

/-- `VCAST.U32 Vd, Va` (R246). -/
def execVcastU32 (vd va : VReg) (s : State) : Host.Outcome State Fault Refusal :=
  .next (s.retireV vd (castTo .u32 (s.readV va)))

/-- `VCAST.S16 Vd, Va` (R247). -/
def execVcastS16 (vd va : VReg) (s : State) : Host.Outcome State Fault Refusal :=
  .next (s.retireV vd (castTo .s16 (s.readV va)))

/-- `VCAST.U16 Vd, Va` (R248). -/
def execVcastU16 (vd va : VReg) (s : State) : Host.Outcome State Fault Refusal :=
  .next (s.retireV vd (castTo .u16 (s.readV va)))

/-- `VCAST.S8 Vd, Va` (R249). -/
def execVcastS8 (vd va : VReg) (s : State) : Host.Outcome State Fault Refusal :=
  .next (s.retireV vd (castTo .s8 (s.readV va)))

/-- `VCAST.U8 Vd, Va` (R250). -/
def execVcastU8 (vd va : VReg) (s : State) : Host.Outcome State Fault Refusal :=
  .next (s.retireV vd (castTo .u8 (s.readV va)))

end Sys2Proof.Machine
end

