-- ==== Sys2Proof/Machine/ScalarSystem.lean ====
section
/-! DEFINITION. Scalar immediates, no-operation and halt (spec/48_scalar_system.md R280-R293). There is no control transfer (R290) and no
environment call, trap return or privileged instruction (R292). -/

namespace Sys2Proof.Machine

/-- `LIL Sd, imm16` (R281): the immediate, zero-extended; Sd is not read. -/
def execLil (sd : SReg) (imm16 : BitVec 16) (s : State) : Host.Outcome State Fault Refusal :=
  .next (s.retireS sd (zeroExtend16 imm16))

/-- `LIH Sd, imm16` (R282): the high half replaced, the low half kept. -/
def execLih (sd : SReg) (imm16 : BitVec 16) (s : State) : Host.Outcome State Fault Refusal :=
  .next (s.retireS sd (replaceHigh16 imm16 (s.readS sd)))

/-- `NOP` (R283). -/
def execNop (s : State) : Host.Outcome State Fault Refusal :=
  .next s.advance

/-- `HALT` (R293). -/
def execHalt (s : State) : Host.Outcome State Fault Refusal :=
  .next s.halt

end Sys2Proof.Machine
end

