-- ==== Sys2Proof/Machine/Dispatch.lean ====
section
/-! DEFINITION. Dispatch: one arm per instruction of the opcode map (spec/30_encoding.md R100), in the table's order. -/

namespace Sys2Proof.Machine

def exec (i : Instr) (s : State) : Host.Outcome State Fault Refusal :=
  match i with
  | .nop => Sys2Proof.Machine.execNop s
  | .halt => Sys2Proof.Machine.execHalt s
  | .lil sd imm16 => Sys2Proof.Machine.execLil sd imm16 s
  | .lih sd imm16 => Sys2Proof.Machine.execLih sd imm16 s
  | .vmake vd sx sy sz sw => Sys2Proof.Machine.execVmake vd sx sy sz sw s
  | .vext sd va lane => Sys2Proof.Machine.execVext sd va lane s
  | .vins vd sa lane => Sys2Proof.Machine.execVins vd sa lane s
  | .vand vd va vb => Sys2Proof.Machine.execVand vd va vb s
  | .vor vd va vb => Sys2Proof.Machine.execVor vd va vb s
  | .vxor vd va vb => Sys2Proof.Machine.execVxor vd va vb s
  | .vandn vd va vb => Sys2Proof.Machine.execVandn vd va vb s
  | .vadd vd va vb => Sys2Proof.Machine.execVadd vd va vb s
  | .vsub vd va vb => Sys2Proof.Machine.execVsub vd va vb s
  | .vmul vd va vb => Sys2Proof.Machine.execVmul vd va vb s
  | .vdiv vd va vb => Sys2Proof.Machine.execVdiv vd va vb s
  | .vmin vd va vb => Sys2Proof.Machine.execVmin vd va vb s
  | .vmax vd va vb => Sys2Proof.Machine.execVmax vd va vb s
  | .vrcp vd va => Sys2Proof.Machine.execVrcp vd va s
  | .vsqrt vd va => Sys2Proof.Machine.execVsqrt vd va s
  | .vrsqrt vd va => Sys2Proof.Machine.execVrsqrt vd va s
  | .vhadd vd va vb => Sys2Proof.Machine.execVhadd vd va vb s
  | .vhsub vd va vb => Sys2Proof.Machine.execVhsub vd va vb s
  | .vaddsub vd va vb => Sys2Proof.Machine.execVaddsub vd va vb s
  | .vdupl vd va => Sys2Proof.Machine.execVdupl vd va s
  | .vduph vd va => Sys2Proof.Machine.execVduph vd va s
  | .vilvl vd va vb => Sys2Proof.Machine.execVilvl vd va vb s
  | .vilvh vd va vb => Sys2Proof.Machine.execVilvh vd va vb s
  | .vshuf vd va sel => Sys2Proof.Machine.execVshuf vd va sel s
  | .vcmpeq vd va vb => Sys2Proof.Machine.execVcmpeq vd va vb s
  | .vcmplt vd va vb => Sys2Proof.Machine.execVcmplt vd va vb s
  | .vcmple vd va vb => Sys2Proof.Machine.execVcmple vd va vb s
  | .vcmpunord vd va vb => Sys2Proof.Machine.execVcmpunord vd va vb s
  | .vcmpneq vd va vb => Sys2Proof.Machine.execVcmpneq vd va vb s
  | .vcmpnlt vd va vb => Sys2Proof.Machine.execVcmpnlt vd va vb s
  | .vcmpnle vd va vb => Sys2Proof.Machine.execVcmpnle vd va vb s
  | .vcmpord vd va vb => Sys2Proof.Machine.execVcmpord vd va vb s
  | .vcastF32 vd va => Sys2Proof.Machine.execVcastF32 vd va s
  | .vcastS64 vd va => Sys2Proof.Machine.execVcastS64 vd va s
  | .vcastU64 vd va => Sys2Proof.Machine.execVcastU64 vd va s
  | .vcastS32 vd va => Sys2Proof.Machine.execVcastS32 vd va s
  | .vcastU32 vd va => Sys2Proof.Machine.execVcastU32 vd va s
  | .vcastS16 vd va => Sys2Proof.Machine.execVcastS16 vd va s
  | .vcastU16 vd va => Sys2Proof.Machine.execVcastU16 vd va s
  | .vcastS8 vd va => Sys2Proof.Machine.execVcastS8 vd va s
  | .vcastU8 vd va => Sys2Proof.Machine.execVcastU8 vd va s
  | .vld vt sb off => Sys2Proof.Machine.execVld vt sb off s
  | .vst vt sb off => Sys2Proof.Machine.execVst vt sb off s
  | .vpref hint sb off => Sys2Proof.Machine.execVpref hint sb off s

end Sys2Proof.Machine
end

