-- ==== Sys2Proof/WellFormed.lean ====
section
/-! DEFINITION. Which terms of `Instr` an instruction word can hold: the assembler's check of R104, "an immediate that does not
fit its field is an assembly error, never truncated". Register numbers, lanes, `imm16` of `LIL` and `LIH` and `sel` fit by
their types. -/

namespace Sys2Proof

/-- R92, R104: a displacement is in -32768 .. +32767. -/
def fitsDisplacement (off : Int) : Bool :=
  decide (-32768 ≤ off) && decide (off ≤ 32767)

/-- R98, R104: a prefetch hint is in 0 .. 3. -/
def fitsHint (hint : Nat) : Bool :=
  decide (hint < 4)

/-- The immediates of an instruction fit their fields (R104). -/
def Instr.wellFormed : Instr → Bool
  | .nop => true
  | .halt => true
  | .lil _ _ => true
  | .lih _ _ => true
  | .vmake _ _ _ _ _ => true
  | .vext _ _ _ => true
  | .vins _ _ _ => true
  | .vand _ _ _ => true
  | .vor _ _ _ => true
  | .vxor _ _ _ => true
  | .vandn _ _ _ => true
  | .vadd _ _ _ => true
  | .vsub _ _ _ => true
  | .vmul _ _ _ => true
  | .vdiv _ _ _ => true
  | .vmin _ _ _ => true
  | .vmax _ _ _ => true
  | .vrcp _ _ => true
  | .vsqrt _ _ => true
  | .vrsqrt _ _ => true
  | .vhadd _ _ _ => true
  | .vhsub _ _ _ => true
  | .vaddsub _ _ _ => true
  | .vdupl _ _ => true
  | .vduph _ _ => true
  | .vilvl _ _ _ => true
  | .vilvh _ _ _ => true
  | .vshuf _ _ _ => true
  | .vcmpeq _ _ _ => true
  | .vcmplt _ _ _ => true
  | .vcmple _ _ _ => true
  | .vcmpunord _ _ _ => true
  | .vcmpneq _ _ _ => true
  | .vcmpnlt _ _ _ => true
  | .vcmpnle _ _ _ => true
  | .vcmpord _ _ _ => true
  | .vcastF32 _ _ => true
  | .vcastS64 _ _ => true
  | .vcastU64 _ _ => true
  | .vcastS32 _ _ => true
  | .vcastU32 _ _ => true
  | .vcastS16 _ _ => true
  | .vcastU16 _ _ => true
  | .vcastS8 _ _ => true
  | .vcastU8 _ _ => true
  | .vld _ _ off => fitsDisplacement off
  | .vst _ _ off => fitsDisplacement off
  | .vpref hint _ off => fitsHint hint && fitsDisplacement off

end Sys2Proof
end

