-- ==== Sys2Proof/Decode.lean ====
section
/-! DEFINITION. From instruction words to instructions and back (spec/30_encoding.md R90-R103). A word is cut into the columns
of R91's format table (`Fields`: the opcode and six 4-bit columns); one decoder per format reads the columns and refuses a
word whose must-be-zero bits are not zero; the opcode map of R100 picks the format. Decoding is total and reads nothing but
the word (R102); what is not an instruction is refused by the name of the reason (R101 a, b, c). The encoder after it is
written from the same table. -/

namespace Sys2Proof

/-- Why bytes are not an instruction: the three reasons of R101, and too few bytes for a word (R90). -/
inductive DecodeError where
  /-- R101 (a): the opcode is not in the opcode map of R100. -/
  | unassignedOpcode
  /-- R101 (b): a must-be-zero bit of the word's format is 1. -/
  | mustBeZero
  /-- R101 (c): opcode 0x68 with a tag 9 .. 15. -/
  | reservedTag
  /-- Fewer than the four bytes of an instruction word (R90). -/
  | truncated
deriving DecidableEq, Repr

/-- The columns of R91's format table: `op` is bits 31..24, `n5` bits 23..20, down to `n0`, bits 3..0. -/
structure Fields where
  op : BitVec 8
  n5 : BitVec 4
  n4 : BitVec 4
  n3 : BitVec 4
  n2 : BitVec 4
  n1 : BitVec 4
  n0 : BitVec 4
deriving DecidableEq, Repr

/-- The columns of a word (R91). -/
def Fields.ofWord (w : Word) : Fields where
  op := w.extractLsb' 24 8
  n5 := w.extractLsb' 20 4
  n4 := w.extractLsb' 16 4
  n3 := w.extractLsb' 12 4
  n2 := w.extractLsb' 8 4
  n1 := w.extractLsb' 4 4
  n0 := w.extractLsb' 0 4

/-- The word with these columns (R91). -/
def Fields.toWord (f : Fields) : Word :=
  f.op ++ f.n5 ++ f.n4 ++ f.n3 ++ f.n2 ++ f.n1 ++ f.n0

/-- The 16-bit immediate of formats SI, M and P: bits 15..0 (R91, R92, R93). -/
def Fields.imm16 (f : Fields) : BitVec 16 :=
  f.n3 ++ f.n2 ++ f.n1 ++ f.n0

/-- R99: a register field holds the register number unsigned. -/
def vregOf (n : BitVec 4) : VReg := ⟨n.toFin⟩

/-- R99: a register field holds the register number unsigned. -/
def sregOf (n : BitVec 4) : SReg := ⟨n.toFin⟩

/-- R95: the lane field, 0 = X, 1 = Y, 2 = Z, 3 = W. -/
def laneOf (n : BitVec 2) : Lane :=
  if n = 0#2 then .x else if n = 1#2 then .y else if n = 2#2 then .z else .w

/-! ### One decoder per format (R91) -/

/-- Format N: bits 23..0 are zero. -/
def decodeN (f : Fields) (i : Instr) : Except DecodeError Instr :=
  if f.n5 = 0 ∧ f.n4 = 0 ∧ f.n3 = 0 ∧ f.n2 = 0 ∧ f.n1 = 0 ∧ f.n0 = 0 then .ok i else .error .mustBeZero

/-- Format SI: sd, zero, imm16. -/
def decodeSI (f : Fields) (mk : SReg → BitVec 16 → Instr) : Except DecodeError Instr :=
  if f.n4 = 0 then .ok (mk (sregOf f.n5) f.imm16) else .error .mustBeZero

/-- Format VS4: vd, sx, sy, sz, sw, zero. -/
def decodeVS4 (f : Fields) (mk : VReg → SReg → SReg → SReg → SReg → Instr) : Except DecodeError Instr :=
  if f.n0 = 0 then .ok (mk (vregOf f.n5) (sregOf f.n4) (sregOf f.n3) (sregOf f.n2) (sregOf f.n1))
  else .error .mustBeZero

/-- Format SVL: sd, va, zeros, lane in bits 1..0. -/
def decodeSVL (f : Fields) (mk : SReg → VReg → Lane → Instr) : Except DecodeError Instr :=
  if f.n3 = 0 ∧ f.n2 = 0 ∧ f.n1 = 0 ∧ f.n0.extractLsb' 2 2 = 0 then
    .ok (mk (sregOf f.n5) (vregOf f.n4) (laneOf (f.n0.extractLsb' 0 2)))
  else .error .mustBeZero

/-- Format VSL: vd, sa, zeros, lane in bits 1..0. -/
def decodeVSL (f : Fields) (mk : VReg → SReg → Lane → Instr) : Except DecodeError Instr :=
  if f.n3 = 0 ∧ f.n2 = 0 ∧ f.n1 = 0 ∧ f.n0.extractLsb' 2 2 = 0 then
    .ok (mk (vregOf f.n5) (sregOf f.n4) (laneOf (f.n0.extractLsb' 0 2)))
  else .error .mustBeZero

/-- Format VVV: vd, va, vb, zeros. -/
def decodeVVV (f : Fields) (mk : VReg → VReg → VReg → Instr) : Except DecodeError Instr :=
  if f.n2 = 0 ∧ f.n1 = 0 ∧ f.n0 = 0 then .ok (mk (vregOf f.n5) (vregOf f.n4) (vregOf f.n3))
  else .error .mustBeZero

/-- Format VV: vd, va, zeros. -/
def decodeVV (f : Fields) (mk : VReg → VReg → Instr) : Except DecodeError Instr :=
  if f.n3 = 0 ∧ f.n2 = 0 ∧ f.n1 = 0 ∧ f.n0 = 0 then .ok (mk (vregOf f.n5) (vregOf f.n4))
  else .error .mustBeZero

/-- Format VVI: vd, va, zeros, the selector in bits 7..0 (R94). -/
def decodeVVI (f : Fields) (mk : VReg → VReg → BitVec 8 → Instr) : Except DecodeError Instr :=
  if f.n3 = 0 ∧ f.n2 = 0 then .ok (mk (vregOf f.n5) (vregOf f.n4) (f.n1 ++ f.n0)) else .error .mustBeZero

/-- R96: the comparison a predicate 0 .. 7 selects; a column 8 .. 15 has the must-be-zero bit 3 set. -/
def compareOf (pred : BitVec 4) : Option (VReg → VReg → VReg → Instr) :=
  match pred with
  | 0#4 => some .vcmpeq
  | 1#4 => some .vcmplt
  | 2#4 => some .vcmple
  | 3#4 => some .vcmpunord
  | 4#4 => some .vcmpneq
  | 5#4 => some .vcmpnlt
  | 6#4 => some .vcmpnle
  | 7#4 => some .vcmpord
  | _ => none

/-- Format VVVP: vd, va, vb, zeros, the predicate in bits 2..0. -/
def decodeVVVP (f : Fields) : Except DecodeError Instr :=
  match compareOf f.n0 with
  | some mk =>
    if f.n2 = 0 ∧ f.n1 = 0 then .ok (mk (vregOf f.n5) (vregOf f.n4) (vregOf f.n3)) else .error .mustBeZero
  | none => .error .mustBeZero

/-- R97: the view a tag 0 .. 8 names; tags 9 .. 15 are reserved. -/
def castOf (tag : BitVec 4) : Option (VReg → VReg → Instr) :=
  match tag with
  | 0#4 => some .vcastF32
  | 1#4 => some .vcastS64
  | 2#4 => some .vcastU64
  | 3#4 => some .vcastS32
  | 4#4 => some .vcastU32
  | 5#4 => some .vcastS16
  | 6#4 => some .vcastU16
  | 7#4 => some .vcastS8
  | 8#4 => some .vcastU8
  | _ => none

/-- Format VVT: vd, va, zeros, the tag in bits 3..0. DESIGN CHOICE (log entry 17): a word that R101 (b) and (c) both refuse is
refused for its must-be-zero bit. -/
def decodeVVT (f : Fields) : Except DecodeError Instr :=
  if f.n3 = 0 ∧ f.n2 = 0 ∧ f.n1 = 0 then
    match castOf f.n0 with
    | some mk => .ok (mk (vregOf f.n5) (vregOf f.n4))
    | none => .error .reservedTag
  else .error .mustBeZero

/-- Format M: vt, sb, the signed displacement in bits 15..0 (R92). -/
def decodeM (f : Fields) (mk : VReg → SReg → Int → Instr) : Except DecodeError Instr :=
  .ok (mk (vregOf f.n5) (sregOf f.n4) f.imm16.toInt)

/-- Format P: zeros in bits 23..22, the hint in bits 21..20, sb, the signed displacement (R92, R98). -/
def decodeP (f : Fields) (mk : Nat → SReg → Int → Instr) : Except DecodeError Instr :=
  if f.n5.extractLsb' 2 2 = 0 then .ok (mk (f.n5.extractLsb' 0 2).toNat (sregOf f.n4) f.imm16.toInt)
  else .error .mustBeZero

/-- The opcode map (R100): the format decoder of each assigned opcode; every other opcode is unassigned (R101 a). -/
def decodeFields (f : Fields) : Except DecodeError Instr :=
  match f.op with
  | 0x01#8 => decodeN f .nop
  | 0x02#8 => decodeN f .halt
  | 0x04#8 => decodeSI f .lil
  | 0x05#8 => decodeSI f .lih
  | 0x10#8 => decodeVS4 f .vmake
  | 0x11#8 => decodeSVL f .vext
  | 0x12#8 => decodeVSL f .vins
  | 0x20#8 => decodeVVV f .vand
  | 0x21#8 => decodeVVV f .vor
  | 0x22#8 => decodeVVV f .vxor
  | 0x23#8 => decodeVVV f .vandn
  | 0x30#8 => decodeVVV f .vadd
  | 0x31#8 => decodeVVV f .vsub
  | 0x32#8 => decodeVVV f .vmul
  | 0x33#8 => decodeVVV f .vdiv
  | 0x34#8 => decodeVVV f .vmin
  | 0x35#8 => decodeVVV f .vmax
  | 0x38#8 => decodeVV f .vrcp
  | 0x39#8 => decodeVV f .vsqrt
  | 0x3A#8 => decodeVV f .vrsqrt
  | 0x40#8 => decodeVVV f .vhadd
  | 0x41#8 => decodeVVV f .vhsub
  | 0x42#8 => decodeVVV f .vaddsub
  | 0x50#8 => decodeVV f .vdupl
  | 0x51#8 => decodeVV f .vduph
  | 0x52#8 => decodeVVV f .vilvl
  | 0x53#8 => decodeVVV f .vilvh
  | 0x58#8 => decodeVVI f .vshuf
  | 0x60#8 => decodeVVVP f
  | 0x68#8 => decodeVVT f
  | 0x70#8 => decodeM f .vld
  | 0x71#8 => decodeM f .vst
  | 0x72#8 => decodeP f .vpref
  | _ => .error .unassignedOpcode

/-- The instruction a word is (R102), or why it is none (R101). -/
def decode (w : Word) : Except DecodeError Instr :=
  decodeFields (Fields.ofWord w)

/-! ### Bytes (R64, R90) -/

/-- Four bytes, the one at the lowest address first, as a little-endian word (R14, R64). -/
def wordOfBytes (b0 b1 b2 b3 : Byte) : Word :=
  b3 ++ b2 ++ b1 ++ b0

/-- The little-endian bytes of a word, the one at the lowest address first (R64). -/
def bytesOfWord (w : Word) : List Byte :=
  [w.extractLsb' 0 8, w.extractLsb' 8 8, w.extractLsb' 16 8, w.extractLsb' 24 8]

/-- Decode the first instruction of a byte string and give the bytes after it; total on any bytes. -/
def decodeBytes : List Byte → Except DecodeError (Instr × List Byte)
  | b0 :: b1 :: b2 :: b3 :: rest =>
    match decode (wordOfBytes b0 b1 b2 b3) with
    | .ok i => .ok (i, rest)
    | .error e => .error e
  | _ => .error .truncated

/-- The host's reading of the decoder: the instruction of the word `w` of `nbits` bits (every row of the table has 32), its
bytes laid out little-endian (R64) and given to `decodeBytes`; `none` where the decoder refuses. -/
def decodeTableWord (nbits w : Nat) : Option Instr :=
  match decodeBytes (bytesOfWord (BitVec.ofNat 32 (w % 2 ^ nbits))) with
  | .ok (i, _) => some i
  | .error _ => none

/-! ### The encoder (R91, R100) -/

/-- The field of a vector register (R99). -/
def VReg.field (r : VReg) : BitVec 4 := BitVec.ofFin r.num

/-- The field of a scalar register (R99). -/
def SReg.field (r : SReg) : BitVec 4 := BitVec.ofFin r.num

/-- The column that holds a lane number in bits 1..0 (R91, R95). -/
def Lane.field : Lane → BitVec 4
  | .x => 0#4
  | .y => 1#4
  | .z => 2#4
  | .w => 3#4

/-- Format N. -/
def encodeN (op : BitVec 8) : Word :=
  Fields.toWord ⟨op, 0, 0, 0, 0, 0, 0⟩

/-- Format SI. -/
def encodeSI (op : BitVec 8) (sd : SReg) (imm16 : BitVec 16) : Word :=
  Fields.toWord ⟨op, sd.field, 0, imm16.extractLsb' 12 4, imm16.extractLsb' 8 4, imm16.extractLsb' 4 4,
    imm16.extractLsb' 0 4⟩

/-- Format VS4. -/
def encodeVS4 (op : BitVec 8) (vd : VReg) (sx sy sz sw : SReg) : Word :=
  Fields.toWord ⟨op, vd.field, sx.field, sy.field, sz.field, sw.field, 0⟩

/-- Format SVL. -/
def encodeSVL (op : BitVec 8) (sd : SReg) (va : VReg) (lane : Lane) : Word :=
  Fields.toWord ⟨op, sd.field, va.field, 0, 0, 0, lane.field⟩

/-- Format VSL. -/
def encodeVSL (op : BitVec 8) (vd : VReg) (sa : SReg) (lane : Lane) : Word :=
  Fields.toWord ⟨op, vd.field, sa.field, 0, 0, 0, lane.field⟩

/-- Formats VVV and VVVP: the last column is 0 or the predicate. -/
def encodeVVV (op : BitVec 8) (vd va vb : VReg) (pred : BitVec 4) : Word :=
  Fields.toWord ⟨op, vd.field, va.field, vb.field, 0, 0, pred⟩

/-- Formats VV and VVT: the last column is 0 or the tag. -/
def encodeVV (op : BitVec 8) (vd va : VReg) (tag : BitVec 4) : Word :=
  Fields.toWord ⟨op, vd.field, va.field, 0, 0, 0, tag⟩

/-- Format VVI. -/
def encodeVVI (op : BitVec 8) (vd va : VReg) (sel : BitVec 8) : Word :=
  Fields.toWord ⟨op, vd.field, va.field, 0, 0, sel.extractLsb' 4 4, sel.extractLsb' 0 4⟩

/-- Formats M and P: the first column is the vector register or the hint, the displacement its low 16 bits (R92). -/
def encodeM (op : BitVec 8) (first : BitVec 4) (sb : SReg) (off : Int) : Word :=
  let imm16 := BitVec.ofInt 16 off
  Fields.toWord ⟨op, first, sb.field, imm16.extractLsb' 12 4, imm16.extractLsb' 8 4, imm16.extractLsb' 4 4,
    imm16.extractLsb' 0 4⟩

/-- The word of a well-formed instruction (R91, R100). -/
def encode : Instr → Word
  | .nop => encodeN 0x01#8
  | .halt => encodeN 0x02#8
  | .lil sd imm16 => encodeSI 0x04#8 sd imm16
  | .lih sd imm16 => encodeSI 0x05#8 sd imm16
  | .vmake vd sx sy sz sw => encodeVS4 0x10#8 vd sx sy sz sw
  | .vext sd va lane => encodeSVL 0x11#8 sd va lane
  | .vins vd sa lane => encodeVSL 0x12#8 vd sa lane
  | .vand vd va vb => encodeVVV 0x20#8 vd va vb 0
  | .vor vd va vb => encodeVVV 0x21#8 vd va vb 0
  | .vxor vd va vb => encodeVVV 0x22#8 vd va vb 0
  | .vandn vd va vb => encodeVVV 0x23#8 vd va vb 0
  | .vadd vd va vb => encodeVVV 0x30#8 vd va vb 0
  | .vsub vd va vb => encodeVVV 0x31#8 vd va vb 0
  | .vmul vd va vb => encodeVVV 0x32#8 vd va vb 0
  | .vdiv vd va vb => encodeVVV 0x33#8 vd va vb 0
  | .vmin vd va vb => encodeVVV 0x34#8 vd va vb 0
  | .vmax vd va vb => encodeVVV 0x35#8 vd va vb 0
  | .vrcp vd va => encodeVV 0x38#8 vd va 0
  | .vsqrt vd va => encodeVV 0x39#8 vd va 0
  | .vrsqrt vd va => encodeVV 0x3A#8 vd va 0
  | .vhadd vd va vb => encodeVVV 0x40#8 vd va vb 0
  | .vhsub vd va vb => encodeVVV 0x41#8 vd va vb 0
  | .vaddsub vd va vb => encodeVVV 0x42#8 vd va vb 0
  | .vdupl vd va => encodeVV 0x50#8 vd va 0
  | .vduph vd va => encodeVV 0x51#8 vd va 0
  | .vilvl vd va vb => encodeVVV 0x52#8 vd va vb 0
  | .vilvh vd va vb => encodeVVV 0x53#8 vd va vb 0
  | .vshuf vd va sel => encodeVVI 0x58#8 vd va sel
  | .vcmpeq vd va vb => encodeVVV 0x60#8 vd va vb 0
  | .vcmplt vd va vb => encodeVVV 0x60#8 vd va vb 1
  | .vcmple vd va vb => encodeVVV 0x60#8 vd va vb 2
  | .vcmpunord vd va vb => encodeVVV 0x60#8 vd va vb 3
  | .vcmpneq vd va vb => encodeVVV 0x60#8 vd va vb 4
  | .vcmpnlt vd va vb => encodeVVV 0x60#8 vd va vb 5
  | .vcmpnle vd va vb => encodeVVV 0x60#8 vd va vb 6
  | .vcmpord vd va vb => encodeVVV 0x60#8 vd va vb 7
  | .vcastF32 vd va => encodeVV 0x68#8 vd va 0
  | .vcastS64 vd va => encodeVV 0x68#8 vd va 1
  | .vcastU64 vd va => encodeVV 0x68#8 vd va 2
  | .vcastS32 vd va => encodeVV 0x68#8 vd va 3
  | .vcastU32 vd va => encodeVV 0x68#8 vd va 4
  | .vcastS16 vd va => encodeVV 0x68#8 vd va 5
  | .vcastU16 vd va => encodeVV 0x68#8 vd va 6
  | .vcastS8 vd va => encodeVV 0x68#8 vd va 7
  | .vcastU8 vd va => encodeVV 0x68#8 vd va 8
  | .vld vt sb off => encodeM 0x70#8 vt.field sb off
  | .vst vt sb off => encodeM 0x71#8 vt.field sb off
  | .vpref hint sb off => encodeM 0x72#8 (BitVec.ofNat 4 hint) sb off

/-- The little-endian bytes of a well-formed instruction, as they stand in IMEM (R64). -/
def encodeBytes (i : Instr) : List Byte :=
  bytesOfWord (encode i)

/-! ### The opcode table (R100, R102) -/

/-- One row of spec/opcode_table.json: a word is the row's instruction when `word &&& mask = pattern` (R102). -/
structure OpcodeRow where
  mnemonic : String
  pattern : Word
  mask : Word
deriving DecidableEq, Repr

/-- R102: the word matches the row. -/
def OpcodeRow.accepts (r : OpcodeRow) (w : Word) : Bool :=
  w &&& r.mask == r.pattern

/-- System and scalar rows (48_scalar_system.md). -/
def opcodeRowsScalar : List OpcodeRow :=
  [⟨"NOP", 0x01000000, 0xFFFFFFFF⟩,
   ⟨"HALT", 0x02000000, 0xFFFFFFFF⟩,
   ⟨"LIL", 0x04000000, 0xFF0F0000⟩,
   ⟨"LIH", 0x05000000, 0xFF0F0000⟩]

/-- Construction and bitwise rows (40_construction_access.md, 41_bitwise.md). -/
def opcodeRowsConstruct : List OpcodeRow :=
  [⟨"VMAKE", 0x10000000, 0xFF00000F⟩,
   ⟨"VEXT", 0x11000000, 0xFF00FFFC⟩,
   ⟨"VINS", 0x12000000, 0xFF00FFFC⟩,
   ⟨"VAND", 0x20000000, 0xFF000FFF⟩,
   ⟨"VOR", 0x21000000, 0xFF000FFF⟩,
   ⟨"VXOR", 0x22000000, 0xFF000FFF⟩,
   ⟨"VANDN", 0x23000000, 0xFF000FFF⟩]

/-- Arithmetic rows (42_arithmetic.md, 43_horizontal.md). -/
def opcodeRowsArithmetic : List OpcodeRow :=
  [⟨"VADD", 0x30000000, 0xFF000FFF⟩,
   ⟨"VSUB", 0x31000000, 0xFF000FFF⟩,
   ⟨"VMUL", 0x32000000, 0xFF000FFF⟩,
   ⟨"VDIV", 0x33000000, 0xFF000FFF⟩,
   ⟨"VMIN", 0x34000000, 0xFF000FFF⟩,
   ⟨"VMAX", 0x35000000, 0xFF000FFF⟩,
   ⟨"VRCP", 0x38000000, 0xFF00FFFF⟩,
   ⟨"VSQRT", 0x39000000, 0xFF00FFFF⟩,
   ⟨"VRSQRT", 0x3A000000, 0xFF00FFFF⟩,
   ⟨"VHADD", 0x40000000, 0xFF000FFF⟩,
   ⟨"VHSUB", 0x41000000, 0xFF000FFF⟩,
   ⟨"VADDSUB", 0x42000000, 0xFF000FFF⟩]

/-- Permute rows (44_permute.md). -/
def opcodeRowsPermute : List OpcodeRow :=
  [⟨"VDUPL", 0x50000000, 0xFF00FFFF⟩,
   ⟨"VDUPH", 0x51000000, 0xFF00FFFF⟩,
   ⟨"VILVL", 0x52000000, 0xFF000FFF⟩,
   ⟨"VILVH", 0x53000000, 0xFF000FFF⟩,
   ⟨"VSHUF", 0x58000000, 0xFF00FF00⟩]

/-- Comparison rows (45_compare.md). -/
def opcodeRowsCompare : List OpcodeRow :=
  [⟨"VCMPEQ", 0x60000000, 0xFF000FFF⟩,
   ⟨"VCMPLT", 0x60000001, 0xFF000FFF⟩,
   ⟨"VCMPLE", 0x60000002, 0xFF000FFF⟩,
   ⟨"VCMPUNORD", 0x60000003, 0xFF000FFF⟩,
   ⟨"VCMPNEQ", 0x60000004, 0xFF000FFF⟩,
   ⟨"VCMPNLT", 0x60000005, 0xFF000FFF⟩,
   ⟨"VCMPNLE", 0x60000006, 0xFF000FFF⟩,
   ⟨"VCMPORD", 0x60000007, 0xFF000FFF⟩]

/-- Reinterpretation rows (46_reinterpret.md). -/
def opcodeRowsCast : List OpcodeRow :=
  [⟨"VCAST.F32", 0x68000000, 0xFF00FFFF⟩,
   ⟨"VCAST.S64", 0x68000001, 0xFF00FFFF⟩,
   ⟨"VCAST.U64", 0x68000002, 0xFF00FFFF⟩,
   ⟨"VCAST.S32", 0x68000003, 0xFF00FFFF⟩,
   ⟨"VCAST.U32", 0x68000004, 0xFF00FFFF⟩,
   ⟨"VCAST.S16", 0x68000005, 0xFF00FFFF⟩,
   ⟨"VCAST.U16", 0x68000006, 0xFF00FFFF⟩,
   ⟨"VCAST.S8", 0x68000007, 0xFF00FFFF⟩,
   ⟨"VCAST.U8", 0x68000008, 0xFF00FFFF⟩]

/-- Load, store and prefetch rows (47_load_store.md). -/
def opcodeRowsMemory : List OpcodeRow :=
  [⟨"VLD", 0x70000000, 0xFF000000⟩,
   ⟨"VST", 0x71000000, 0xFF000000⟩,
   ⟨"VPREF", 0x72000000, 0xFFC00000⟩]

/-- The opcode table, in the order of spec/opcode_table.json. -/
def opcodeTable : List OpcodeRow :=
  opcodeRowsScalar ++ opcodeRowsConstruct ++ opcodeRowsArithmetic ++ opcodeRowsPermute ++ opcodeRowsCompare ++ opcodeRowsCast ++ opcodeRowsMemory

/-- The mnemonic of an instruction, as spec/opcode_table.json spells it (R100). -/
def Instr.mnemonic : Instr → String
  | .nop => "NOP"
  | .halt => "HALT"
  | .lil _ _ => "LIL"
  | .lih _ _ => "LIH"
  | .vmake _ _ _ _ _ => "VMAKE"
  | .vext _ _ _ => "VEXT"
  | .vins _ _ _ => "VINS"
  | .vand _ _ _ => "VAND"
  | .vor _ _ _ => "VOR"
  | .vxor _ _ _ => "VXOR"
  | .vandn _ _ _ => "VANDN"
  | .vadd _ _ _ => "VADD"
  | .vsub _ _ _ => "VSUB"
  | .vmul _ _ _ => "VMUL"
  | .vdiv _ _ _ => "VDIV"
  | .vmin _ _ _ => "VMIN"
  | .vmax _ _ _ => "VMAX"
  | .vrcp _ _ => "VRCP"
  | .vsqrt _ _ => "VSQRT"
  | .vrsqrt _ _ => "VRSQRT"
  | .vhadd _ _ _ => "VHADD"
  | .vhsub _ _ _ => "VHSUB"
  | .vaddsub _ _ _ => "VADDSUB"
  | .vdupl _ _ => "VDUPL"
  | .vduph _ _ => "VDUPH"
  | .vilvl _ _ _ => "VILVL"
  | .vilvh _ _ _ => "VILVH"
  | .vshuf _ _ _ => "VSHUF"
  | .vcmpeq _ _ _ => "VCMPEQ"
  | .vcmplt _ _ _ => "VCMPLT"
  | .vcmple _ _ _ => "VCMPLE"
  | .vcmpunord _ _ _ => "VCMPUNORD"
  | .vcmpneq _ _ _ => "VCMPNEQ"
  | .vcmpnlt _ _ _ => "VCMPNLT"
  | .vcmpnle _ _ _ => "VCMPNLE"
  | .vcmpord _ _ _ => "VCMPORD"
  | .vcastF32 _ _ => "VCAST.F32"
  | .vcastS64 _ _ => "VCAST.S64"
  | .vcastU64 _ _ => "VCAST.U64"
  | .vcastS32 _ _ => "VCAST.S32"
  | .vcastU32 _ _ => "VCAST.U32"
  | .vcastS16 _ _ => "VCAST.S16"
  | .vcastU16 _ _ => "VCAST.U16"
  | .vcastS8 _ _ => "VCAST.S8"
  | .vcastU8 _ _ => "VCAST.U8"
  | .vld _ _ _ => "VLD"
  | .vst _ _ _ => "VST"
  | .vpref _ _ _ => "VPREF"

end Sys2Proof
end

