-- ==== Sys2Proof/Machine/Fetch.lean ====
section
/-! DEFINITION. What stands before an instruction's own effect in a step (spec/60_exceptions.md R301-R303): the fetch check, the
fetch and the decoder; and a stopped sequencer (R316). -/

namespace Sys2Proof.Machine

/-- The instruction at pc, or the fault its fetch or its decoding raises and what FAULT_INFO records of it, in the order of
R303: FETCH_FAULT(pc) (R301), then ILLEGAL_INSTRUCTION(word) (R302). No register is read. -/
def State.fetch (s : State) : Except (Cause × Word) Instr :=
  if s.fetchFaults then .error (.fetchFault, s.pc)
  else
    match decode s.fetchWord with
    | .ok i => .ok i
    | .error _ => .error (.illegalInstruction, s.fetchWord)

/-- A step asked for while STATE is not RUNNING: "the sequencer does not step" (R316), so there is no next state (log
entry 4). -/
def stoppedStep : Host.Outcome State Fault Refusal := .fault .sequencerStopped

end Sys2Proof.Machine
end

