-- ==== Sys2Proof/Machine/Step.lean ====
section
/-! DEFINITION. One step of the sequencer (spec/60_exceptions.md R301-R303, spec/70_reset_and_hazards.md R360): fetch, decode,
execute; and the state whose next step runs a given word. -/

namespace Sys2Proof.Machine

/-- One step. While RUNNING, the fetched instruction has its effect, or the fault of its fetch is taken; while IDLE, HALTED or
FAULTED the sequencer does not step (R316). -/
def step (s : State) : Host.Outcome State Fault Refusal :=
  match s.seq with
  | .running =>
    match s.fetch with
    | .ok i => exec i s
    | .error (cause, info) => .next (takeFault cause info s)
  | .idle => stoppedStep
  | .halted => stoppedStep
  | .faulted => stoppedStep

/-- The state whose very next step runs the instruction word `w` of `nbits` bits: the word in IMEM at pc, little-endian (R64),
and the sequencer RUNNING, as after the host's load and START (R348, R350, log entry 6). A pc that no fetch can be made at is
set to 0, where every IMEM has a word (R9). -/
def State.withFetchWord (s : State) (nbits w : Nat) : State :=
  let pc := if s.fetchFaults then 0#32 else s.pc
  { s with pc := pc, imem := s.imem.writeWord pc.toNat (BitVec.ofNat 32 (w % 2 ^ nbits)), seq := .running }

end Sys2Proof.Machine
end

