-- ==== Sys2Proof/Machine/Assembler.lean ====
section
/-! DEFINITION. The assembler's side of the instruction set (spec/30_encoding.md R104-R106): the syntax of each instruction, the
pseudo-instructions with their exact expansions, and the named selectors. The hardware sees only the words (R105, R106). -/

namespace Sys2Proof.Machine

/-! ### Syntax (R104) -/

/-- `V0` .. `V15`. -/
def showV (r : VReg) : String := "V" ++ toString r.num.val

/-- `S0` .. `S15`. -/
def showS (r : SReg) : String := "S" ++ toString r.num.val

/-- `X`, `Y`, `Z`, `W`. -/
def showLane : Lane → String
  | .x => "X"
  | .y => "Y"
  | .z => "Z"
  | .w => "W"

/-- `off(Sb)`. -/
def showAddress (sb : SReg) (off : Int) : String := toString off ++ "(" ++ showS sb ++ ")"

/-- The operands of an instruction as R104 writes them, destination first. -/
def operandTexts : Instr → List String
  | .nop => []
  | .halt => []
  | .lil sd imm16 => [showS sd, toString imm16.toNat]
  | .lih sd imm16 => [showS sd, toString imm16.toNat]
  | .vmake vd sx sy sz sw => [showV vd, showS sx, showS sy, showS sz, showS sw]
  | .vext sd va lane => [showS sd, showV va, showLane lane]
  | .vins vd sa lane => [showV vd, showS sa, showLane lane]
  | .vand vd va vb => [showV vd, showV va, showV vb]
  | .vor vd va vb => [showV vd, showV va, showV vb]
  | .vxor vd va vb => [showV vd, showV va, showV vb]
  | .vandn vd va vb => [showV vd, showV va, showV vb]
  | .vadd vd va vb => [showV vd, showV va, showV vb]
  | .vsub vd va vb => [showV vd, showV va, showV vb]
  | .vmul vd va vb => [showV vd, showV va, showV vb]
  | .vdiv vd va vb => [showV vd, showV va, showV vb]
  | .vmin vd va vb => [showV vd, showV va, showV vb]
  | .vmax vd va vb => [showV vd, showV va, showV vb]
  | .vrcp vd va => [showV vd, showV va]
  | .vsqrt vd va => [showV vd, showV va]
  | .vrsqrt vd va => [showV vd, showV va]
  | .vhadd vd va vb => [showV vd, showV va, showV vb]
  | .vhsub vd va vb => [showV vd, showV va, showV vb]
  | .vaddsub vd va vb => [showV vd, showV va, showV vb]
  | .vdupl vd va => [showV vd, showV va]
  | .vduph vd va => [showV vd, showV va]
  | .vilvl vd va vb => [showV vd, showV va, showV vb]
  | .vilvh vd va vb => [showV vd, showV va, showV vb]
  | .vshuf vd va sel => [showV vd, showV va, toString sel.toNat]
  | .vcmpeq vd va vb => [showV vd, showV va, showV vb]
  | .vcmplt vd va vb => [showV vd, showV va, showV vb]
  | .vcmple vd va vb => [showV vd, showV va, showV vb]
  | .vcmpunord vd va vb => [showV vd, showV va, showV vb]
  | .vcmpneq vd va vb => [showV vd, showV va, showV vb]
  | .vcmpnlt vd va vb => [showV vd, showV va, showV vb]
  | .vcmpnle vd va vb => [showV vd, showV va, showV vb]
  | .vcmpord vd va vb => [showV vd, showV va, showV vb]
  | .vcastF32 vd va => [showV vd, showV va]
  | .vcastS64 vd va => [showV vd, showV va]
  | .vcastU64 vd va => [showV vd, showV va]
  | .vcastS32 vd va => [showV vd, showV va]
  | .vcastU32 vd va => [showV vd, showV va]
  | .vcastS16 vd va => [showV vd, showV va]
  | .vcastU16 vd va => [showV vd, showV va]
  | .vcastS8 vd va => [showV vd, showV va]
  | .vcastU8 vd va => [showV vd, showV va]
  | .vld vt sb off => [showV vt, showAddress sb off]
  | .vst vt sb off => [showV vt, showAddress sb off]
  | .vpref hint sb off => [toString hint, showAddress sb off]

/-- One line of assembly: the mnemonic, then the operands separated by commas (R104). -/
def assembly (i : Instr) : String :=
  match operandTexts i with
  | [] => i.mnemonic
  | operands => i.mnemonic ++ " " ++ String.intercalate ", " operands

/-- The assembler's word for an instruction, or nothing: an immediate that does not fit its field "is an assembly error, never
truncated" (R104). -/
def assemble (i : Instr) : Option Word :=
  if i.wellFormed then some (encode i) else none

/-! ### Selectors (R94, R106) -/

/-- The per-lane symbol `<d>From<src>`: sets only destination `d`'s pair. -/
def selectorFrom (d src : Lane) : BitVec 8 :=
  BitVec.ofNat 8 (laneNumber src * 4 ^ laneNumber d)

/-- `ExpandX`, `ExpandY`, `ExpandZ`, `ExpandW`: one lane in all four. -/
def selectorExpand (src : Lane) : BitVec 8 :=
  selectorFrom .x src ||| selectorFrom .y src ||| selectorFrom .z src ||| selectorFrom .w src

/-- `ExpandXY`: (X,X,Y,Y). -/
def selectorExpandXY : BitVec 8 := 0x50#8

/-- `ExpandZW`: (Z,Z,W,W). -/
def selectorExpandZW : BitVec 8 := 0xFA#8

/-- `ExpandInterleavedXY`: (X,Y,X,Y). -/
def selectorExpandInterleavedXY : BitVec 8 := 0x44#8

/-- `ExpandInterleavedZW`: (Z,W,Z,W). -/
def selectorExpandInterleavedZW : BitVec 8 := 0xEE#8

/-- `RotateRight`: (Y,Z,W,X). -/
def selectorRotateRight : BitVec 8 := 0x39#8

/-- `RotateLeft`: (W,X,Y,Z). -/
def selectorRotateLeft : BitVec 8 := 0x93#8

/-- `Swap`: (W,Z,Y,X). -/
def selectorSwap : BitVec 8 := 0x1B#8

/-! ### Pseudo-instructions (R105) -/

/-- The pattern `bits(f)` of a literal `± num / den`, rounded to nearest even (R105, GK13). -/
def literalBits (neg : Bool) (num den : Nat) : Word :=
  if num = 0 then zeroOf neg else round32 ⟨if neg then -(num : Int) else (num : Int), den⟩

/-- The pseudo-instructions. -/
inductive Pseudo where
  | li (sd : SReg) (imm32 : Word)
  | lif (sd : SReg) (neg : Bool) (num den : Nat)
  | vmov (vd va : VReg)
  | vzero (vd : VReg)
  | vswap (vd va : VReg)
  | vbcast (src : Lane) (vd va : VReg)
  | vcmpgt (vd va vb : VReg)
  | vcmpge (vd va vb : VReg)
  | vcmpngt (vd va vb : VReg)
  | vcmpnge (vd va vb : VReg)
  | vsel (vd vm va vb vt : VReg)
deriving DecidableEq, Repr

/-- `LI Sd, imm32`: always two words. -/
def expandLi (sd : SReg) (imm32 : Word) : List Instr :=
  [.lil sd (imm32.extractLsb' 0 16), .lih sd (imm32.extractLsb' 16 16)]

/-- The expansion of a pseudo-instruction (R105). -/
def expand : Pseudo → List Instr
  | .li sd imm32 => expandLi sd imm32
  | .lif sd neg num den => expandLi sd (literalBits neg num den)
  | .vmov vd va => [.vcastF32 vd va]
  | .vzero vd => [.vxor vd vd vd]
  | .vswap vd va => [.vshuf vd va selectorSwap]
  | .vbcast src vd va => [.vshuf vd va (selectorExpand src)]
  | .vcmpgt vd va vb => [.vcmplt vd vb va]
  | .vcmpge vd va vb => [.vcmple vd vb va]
  | .vcmpngt vd va vb => [.vcmpnlt vd vb va]
  | .vcmpnge vd va vb => [.vcmpnle vd vb va]
  | .vsel vd vm va vb vt => [.vand vt vm va, .vandn vd vm vb, .vor vd vd vt]

/-- What a pseudo-instruction asks of its operands: `VSEL` "needs Vt ∉ {Vm, Vb} and Vd ≠ Vt" (R105). -/
def Pseudo.usable : Pseudo → Bool
  | .vsel vd vm _ vb vt => vt != vm && vt != vb && vd != vt
  | .lif _ _ _ den => den != 0
  | .li _ _ => true
  | .vmov _ _ => true
  | .vzero _ => true
  | .vswap _ _ => true
  | .vbcast _ _ _ => true
  | .vcmpgt _ _ _ => true
  | .vcmpge _ _ _ => true
  | .vcmpngt _ _ _ => true
  | .vcmpnge _ _ _ => true

end Sys2Proof.Machine
end

