-- ==== Sys2Proof/Machine/HostPort.lean ====
section
/-! DEFINITION. The host, the V4LP's second agent (spec/10_state.md R30, R41-R44, spec/70_reset_and_hazards.md R340-R353): reset,
the control window, and access to registers and memories while the sequencer is stopped. A host operation falls between two
sequencer steps (R340, R360); which agent moves next is an input (`Event`, log entry 9). -/

namespace Sys2Proof.Machine

/-! ### The control window (R41-R44) -/

/-- STATUS: STATE in bits 1..0, bits 31..2 read 0 (R43). -/
def State.status (s : State) : Word :=
  match s.seq with
  | .idle => 0#32
  | .running => 1#32
  | .halted => 2#32
  | .faulted => 3#32

/-- A host read of the control window, allowed at any time (R349): CTRL reads as 0 (R42), any other offset reads 0 (R41). -/
def State.readWindow (s : State) (offset : Nat) : Word :=
  match offset with
  | 0x00 => 0#32
  | 0x04 => s.status
  | 0x08 => s.startPc
  | 0x0C => s.pc
  | 0x10 => (causeCode s.faultCause).setWidth 32
  | 0x14 => s.faultPc
  | 0x18 => s.faultInfo
  | _ => 0#32

/-- A host write of the control window, allowed at any time (R349): CTRL bit 0 starts a sequencer that is not RUNNING (R42,
R345, R346); START_PC (R43); a read-only register and any other offset ignore it (R41). -/
def State.writeWindow (s : State) (offset : Nat) (value : Word) : State :=
  match offset with
  | 0x00 => if value.getLsbD 0 && s.seq != .running then s.start else s
  | 0x08 => s.setStartPc value
  | _ => s

/-! ### Reset (R340, R341) -/

/-- Reset asserted by the host in any state (R340): the control state of R46; registers and memories hold what R341 leaves
unspecified, free values that differ from reset to reset (log entry 5). The memory sizes are parameters and stay (R9). -/
def State.hostReset (s : State) : State where
  vregs := Vector.ofFn (fun i => Config.resetVector s.resets i)
  sregs := Vector.ofFn (fun i => Config.resetScalar s.resets i)
  pc := 0
  seq := .idle
  startPc := 0
  faultCause := .none
  faultPc := 0
  faultInfo := 0
  imem := Memory.ofCells s.imemSize (Config.resetImem s.resets)
  dmem := Memory.ofCells s.dmemSize (Config.resetDmem s.resets)
  imemSize := s.imemSize
  dmemSize := s.dmemSize
  resets := s.resets + 1

/-! ### Registers and memories (R347, R348, R352) -/

/-- An access the host may make only while STATE is not RUNNING; R352 gives it no meaning otherwise (log entry 8). -/
def State.whileStopped {α : Type} (s : State) (answer : Host.Outcome α Fault Refusal) : Host.Outcome α Fault Refusal :=
  if s.seq = .running then .refused .hostAccessWhileRunning else answer

/-- An access to a byte that exists only below the size of its memory (R61, R62, R348). -/
def existing {α : Type} (a size : Nat) (answer : Host.Outcome α Fault Refusal) : Host.Outcome α Fault Refusal :=
  if a < size then answer else .fault .hostNoSuchByte

/-- The host reads `V[r]` (R347). -/
def State.hostReadV (s : State) (r : VReg) : Host.Outcome VWord Fault Refusal := s.whileStopped (.next (s.readV r))

/-- The host reads `S[r]` (R347). -/
def State.hostReadS (s : State) (r : SReg) : Host.Outcome Word Fault Refusal := s.whileStopped (.next (s.readS r))

/-- The host reads a byte of IMEM (R348). -/
def State.hostReadImem (s : State) (a : Nat) : Host.Outcome Byte Fault Refusal :=
  s.whileStopped (existing a s.imemSize (.next (s.imem.read a)))

/-- The host reads a byte of DMEM (R348). -/
def State.hostReadDmem (s : State) (a : Nat) : Host.Outcome Byte Fault Refusal :=
  s.whileStopped (existing a s.dmemSize (.next (s.dmem.read a)))

/-- What the host does that changes the machine's state. -/
inductive HostOp where
  /-- Assert and release reset (R340). -/
  | reset
  /-- Write a 32-bit value at a byte offset of the control window (R41). -/
  | writeWindow (offset : Nat) (value : Word)
  /-- Write a vector register (R347). -/
  | writeV (r : VReg) (x : VWord)
  /-- Write a scalar register (R347). -/
  | writeS (r : SReg) (x : Word)
  /-- Write a byte of IMEM (R348). -/
  | writeImem (a : Nat) (x : Byte)
  /-- Write a byte of DMEM (R348). -/
  | writeDmem (a : Nat) (x : Byte)
deriving DecidableEq, Repr

/-- One host operation. -/
def hostAct (op : HostOp) (s : State) : Host.Outcome State Fault Refusal :=
  match op with
  | .reset => .next s.hostReset
  | .writeWindow offset value => .next (s.writeWindow offset value)
  | .writeV r x => s.whileStopped (.next (s.writeV r x))
  | .writeS r x => s.whileStopped (.next (s.writeS r x))
  | .writeImem a x => s.whileStopped (existing a s.imemSize (.next { s with imem := s.imem.write a x }))
  | .writeDmem a x => s.whileStopped (existing a s.dmemSize (.next { s with dmem := s.dmem.write a x }))

/-- A list of host operations, one after another. -/
def hostActs (ops : List HostOp) (s : State) : Host.Outcome State Fault Refusal :=
  match ops with
  | [] => .next s
  | op :: rest =>
    match hostAct op s with
    | .next t => hostActs rest t
    | .fault r => .fault r
    | .refused r => .refused r

/-! ### The launch sequence (R350) -/

/-- The host writes these bytes to IMEM from address `a` up. -/
def writesImem (a : Nat) : List Byte → List HostOp
  | [] => []
  | x :: rest => .writeImem a x :: writesImem (a + 1) rest

/-- The host writes these bytes to DMEM from address `a` up. -/
def writesDmem (a : Nat) : List Byte → List HostOp
  | [] => []
  | x :: rest => .writeDmem a x :: writesDmem (a + 1) rest

/-- Steps (2)-(6) of R350: the program's words at `start` in IMEM, little-endian, the input bytes at `base` in DMEM, the
registers the program reads, START_PC, and START. -/
def launch (start : Nat) (program : List Word) (base : Nat) (input : List Byte) (vs : List (VReg × VWord))
    (ss : List (SReg × Word)) : List HostOp :=
  writesImem start (program.flatMap bytesOfWord) ++ writesDmem base input ++ vs.map (fun p => .writeV p.1 p.2)
    ++ ss.map (fun p => .writeS p.1 p.2) ++ [.writeWindow 0x08 (BitVec.ofNat 32 start), .writeWindow 0x00 1#32]

/-! ### Both agents (R30) -/

/-- Who moves next, and with what. -/
inductive Event where
  /-- The sequencer takes one step. -/
  | sequencer
  /-- The host does one operation. -/
  | host (op : HostOp)
deriving DecidableEq, Repr

/-- One move of either agent. -/
def act (e : Event) (s : State) : Host.Outcome State Fault Refusal :=
  match e with
  | .sequencer => step s
  | .host op => hostAct op s

end Sys2Proof.Machine
end

