-- ==== Sys2Proof/Safety.lean ====
section
/-! DEFINITION. What counts as a well-kept state, an unchanged part of the machine and the end of a run, in the terms the
statements use. -/

namespace Sys2Proof.Machine

/-- The rules every state of the V4LP keeps, whoever moves: sizes as R9 asks, memories in canonical form with no byte listed
that does not exist (R61, R62), word-aligned pc and START_PC (R38, R43), and fault registers that report a fault exactly while
FAULTED, at the pc that stands there (R44, R306, R308). -/
structure State.Inv (s : State) : Prop where
  imemSize_valid : Config.validSize s.imemSize = true
  dmemSize_valid : Config.validSize s.dmemSize = true
  imem_wf : s.imem.wf
  dmem_wf : s.dmem.wf
  imem_within : s.imem.within s.imemSize
  dmem_within : s.dmem.within s.dmemSize
  pc_aligned : s.pc.extractLsb' 0 2 = 0#2
  startPc_aligned : s.startPc.extractLsb' 0 2 = 0#2
  cause_iff_faulted : s.faultCause ≠ .none ↔ s.seq = .faulted
  faultPc_is_pc : s.seq = .faulted → s.faultPc = s.pc
  no_fault_recorded : s.seq ≠ .faulted → s.faultPc = 0 ∧ s.faultInfo = 0

/-- STATE, START_PC, the fault registers, the parameters and the model's counter are the same. -/
structure SameControl (s t : State) : Prop where
  seq : t.seq = s.seq
  startPc : t.startPc = s.startPc
  faultCause : t.faultCause = s.faultCause
  faultPc : t.faultPc = s.faultPc
  faultInfo : t.faultInfo = s.faultInfo
  imemSize : t.imemSize = s.imemSize
  dmemSize : t.dmemSize = s.dmemSize
  resets : t.resets = s.resets

/-- Every byte of IMEM reads as before. -/
def SameImem (s t : State) : Prop := ∀ a, t.imem.read a = s.imem.read a

/-- Every byte of DMEM reads as before. -/
def SameDmem (s t : State) : Prop := ∀ a, t.dmem.read a = s.dmem.read a

/-- Every vector register but those of `except` reads as before. -/
def SameV (except : VReg → Prop) (s t : State) : Prop := ∀ r, ¬except r → t.readV r = s.readV r

/-- Every scalar register but those of `except` reads as before. -/
def SameS (except : SReg → Prop) (s t : State) : Prop := ∀ r, ¬except r → t.readS r = s.readS r

/-- The frame of an instruction whose only destination is `V[vd]`: all else but pc, which advances by 4, is unchanged. -/
structure FrameV (vd : VReg) (s t : State) : Prop where
  vregs : SameV (· = vd) s t
  sregs : SameS (fun _ => False) s t
  imem : SameImem s t
  dmem : SameDmem s t
  control : SameControl s t
  pc : t.pc = s.pc + 4#32

/-- The frame of an instruction whose only destination is `S[sd]`. -/
structure FrameS (sd : SReg) (s t : State) : Prop where
  vregs : SameV (fun _ => False) s t
  sregs : SameS (· = sd) s t
  imem : SameImem s t
  dmem : SameDmem s t
  control : SameControl s t
  pc : t.pc = s.pc + 4#32

/-- The frame of an instruction with no destination but pc. -/
structure FramePc (s t : State) : Prop where
  vregs : SameV (fun _ => False) s t
  sregs : SameS (fun _ => False) s t
  imem : SameImem s t
  dmem : SameDmem s t
  control : SameControl s t
  pc : t.pc = s.pc + 4#32

/-- The instruction answers a next state, its destination `V[vd]` holds a value as described, and all else is framed. -/
def RetiresV (i : Instr) (s : State) (vd : VReg) (result : VWord → Prop) : Prop :=
  ∃ t, exec i s = .next t ∧ result (t.readV vd) ∧ FrameV vd s t

/-- The instruction answers a next state, its destination `S[sd]` holds a value as described, and all else is framed. -/
def RetiresS (i : Instr) (s : State) (sd : SReg) (result : Word → Prop) : Prop :=
  ∃ t, exec i s = .next t ∧ result (t.readS sd) ∧ FrameS sd s t

/-- Fault entry as R306 writes it: the three fault registers and STATE, "No other state changes". -/
structure FaultTaken (cause : Cause) (info : Word) (s t : State) : Prop where
  seq : t.seq = .faulted
  faultCause : t.faultCause = cause
  faultPc : t.faultPc = s.pc
  faultInfo : t.faultInfo = info
  pc : t.pc = s.pc
  vregs : SameV (fun _ => False) s t
  sregs : SameS (fun _ => False) s t
  imem : SameImem s t
  dmem : SameDmem s t
  startPc : t.startPc = s.startPc
  imemSize : t.imemSize = s.imemSize
  dmemSize : t.dmemSize = s.dmemSize
  resets : t.resets = s.resets

/-- A run has ended: STATE is HALTED or FAULTED (R353). -/
def State.ended (s : State) : Bool :=
  match s.seq with
  | .idle => false
  | .running => false
  | .halted => true
  | .faulted => true

/-- The instructions of a list, one after another. -/
def execAll : List Instr → State → Host.Outcome State Fault Refusal
  | [], s => .next s
  | i :: rest, s =>
    match exec i s with
    | .next t => execAll rest t
    | .fault r => .fault r
    | .refused r => .refused r

/-- `k` steps of the sequencer, stopping where a step has no next state. -/
def steps : Nat → State → Host.Outcome State Fault Refusal
  | 0, s => .next s
  | k + 1, s =>
    match step s with
    | .next t => steps k t
    | .fault r => .fault r
    | .refused r => .refused r

/-- A safe run: after none of `k` steps is the sequencer FAULTED (R353: "a run ending in FAULTED is a failure"). -/
def SafeFor (k : Nat) (s : State) : Prop :=
  ∀ j ≤ k, ∀ t, steps j s = .next t → t.seq ≠ .faulted

/-- The exact number a finite pattern stands for (R150), as a rational. -/
def Frac.toRat (r : Frac) : ℚ := (r.num : ℚ) / (r.den : ℚ)

/-- A pattern of a format that is a zero, a subnormal or a normal: no NaN and no infinity (R150, R165). -/
def Format.isFinite (f : Format) {w : Nat} (x : BitVec w) : Bool := !f.isNaN x && !f.isInf x

/-- `x` is a finite pattern whose value is nearest to `q` among the finite patterns, and has an even significand where another
value is equally near (R153, R165). -/
def Format.IsNearestEven (f : Format) {w : Nat} (x : BitVec w) (q : ℝ) : Prop :=
  f.isFinite x = true ∧ ∀ z : BitVec w, f.isFinite z = true →
    |((f.value x).toRat : ℝ) - q| ≤ |((f.value z).toRat : ℝ) - q| ∧
    ((f.value z).toRat ≠ (f.value x).toRat →
      |((f.value x).toRat : ℝ) - q| = |((f.value z).toRat : ℝ) - q| → x.getLsbD 0 = false)

/-- A primitive's answer is `round32` of this exact value: "one rounding" (R153). -/
def RoundsTo (x : Word) (q : ℚ) : Prop := ∃ r : Frac, 0 < r.den ∧ r.toRat = q ∧ x = round32 r

/-- A pattern that is a zero, a subnormal or a normal: no NaN and no infinity (R150). -/
def isFinite (x : Word) : Bool := !isNaN x && !isInf x

/-- The integer that orders binary32 patterns as R163 orders their values: the magnitude bits, negated for a negative sign. -/
def orderKey (x : Word) : Int :=
  if x.getLsbD 31 then -((x.extractLsb' 0 31).toNat : Int) else ((x.extractLsb' 0 31).toNat : Int)

/-- The nine reinterpretations (R242-R250). -/
def castInstrs : List (VReg → VReg → Instr) :=
  [.vcastF32, .vcastS64, .vcastU64, .vcastS32, .vcastU32, .vcastS16, .vcastU16, .vcastS8, .vcastU8]

/-- The offsets of the control window that name a register (R41). -/
def windowOffsets : List Nat := [0x00, 0x04, 0x08, 0x0C, 0x10, 0x14, 0x18]

/-- The opcodes of R100. -/
def assignedOpcodes : List (BitVec 8) :=
  [0x01, 0x02, 0x04, 0x05, 0x10, 0x11, 0x12, 0x20, 0x21, 0x22, 0x23, 0x30, 0x31, 0x32, 0x33, 0x34, 0x35, 0x38, 0x39, 0x3A,
   0x40, 0x41, 0x42, 0x50, 0x51, 0x52, 0x53, 0x58, 0x60, 0x68, 0x70, 0x71, 0x72]

end Sys2Proof.Machine
end

