-- ==== Sys2Proof/Certificates/Slice0/Obligations.lean ====
section
/-! DEFINITION. The statements about the V4LP, file by file of the spec. A frame (`FrameV`, `FrameS`, `FramePc`, `FaultTaken`)
says that every register, every byte of both memories and all control state but what it names is unchanged. -/

open Sys2Proof Sys2Proof.Machine

/-! ### Decoding and encoding (spec/30_encoding.md) -/

/-- R301, R302: while RUNNING, with the word at pc inside IMEM and an instruction, a step is that instruction's effect. -/
def Obligations.StepRunsDecodedInstruction : Prop :=
  ∀ (s : State) (i : Instr), s.seq = .running → s.pc.toNat + 4 ≤ s.imemSize →
    decode (s.imem.readWord s.pc.toNat) = .ok i → step s = exec i s

/-- R107, word for word: each of the fourteen worked encodings, in both directions. -/
def Obligations.WorkedEncodings : Prop :=
  ∀ p ∈ ([(0x30123000#32, .vadd ⟨1⟩ ⟨2⟩ ⟨3⟩), (0x5845001B#32, .vshuf ⟨4⟩ ⟨5⟩ 0x1B#8), (0x60678005#32, .vcmpnlt ⟨6⟩ ⟨7⟩ ⟨8⟩),
      (0x68990004#32, .vcastU32 ⟨9⟩ ⟨9⟩), (0x11320002#32, .vext ⟨3⟩ ⟨2⟩ .z), (0x12230003#32, .vins ⟨2⟩ ⟨3⟩ .w),
      (0x10012340#32, .vmake ⟨0⟩ ⟨1⟩ ⟨2⟩ ⟨3⟩ ⟨4⟩), (0x70120010#32, .vld ⟨1⟩ ⟨2⟩ 16), (0x7112FFF0#32, .vst ⟨1⟩ ⟨2⟩ (-16)),
      (0x72120000#32, .vpref 1 ⟨2⟩ 0), (0x04101234#32, .lil ⟨1⟩ 0x1234#16), (0x05103F80#32, .lih ⟨1⟩ 0x3F80#16),
      (0x01000000#32, .nop), (0x02000000#32, .halt)] : List (Word × Instr)),
    decode p.1 = .ok p.2 ∧ encode p.2 = p.1

/-- Decoding the word of a well-formed instruction gives the instruction back, every operand at every value (R91, R104). -/
def Obligations.DecodeOfEncode : Prop :=
  ∀ i : Instr, i.wellFormed = true → decode (encode i) = .ok i

/-- A word that decodes is the word of its instruction, which is well formed: no bit of a legal word is dropped (R101 b). -/
def Obligations.EncodeOfDecode : Prop :=
  ∀ (w : Word) (i : Instr), decode w = .ok i → i.wellFormed = true ∧ encode i = w

/-- R102: a word is the instruction of the row of the opcode table that it matches under the row's mask; two rows never match
one word; a word that matches no row is no instruction. -/
def Obligations.DecodeAgreesWithOpcodeTable : Prop :=
  ∀ w : Word,
    (∀ row ∈ opcodeTable, w &&& row.mask = row.pattern → ∃ i, decode w = .ok i ∧ i.mnemonic = row.mnemonic) ∧
    (∀ row ∈ opcodeTable, ∀ other ∈ opcodeTable, w &&& row.mask = row.pattern → w &&& other.mask = other.pattern →
      row = other) ∧
    ((∀ row ∈ opcodeTable, w &&& row.mask ≠ row.pattern) → ∃ e, decode w = .error e)

/-- R101: which words are refused for an unassigned opcode and which for a reserved tag; an all-zero word is illegal. That a
word with a reserved tag and a must-be-zero bit set counts as the latter is the model's choice (log entry 17): R101 gives its
reasons no order. -/
def Obligations.IllegalWordsByReason : Prop :=
  (∀ w : Word, decode w = .error .unassignedOpcode ↔ w.extractLsb' 24 8 ∉ assignedOpcodes) ∧
  (∀ w : Word, decode w = .error .reservedTag ↔
    w.extractLsb' 24 8 = 0x68#8 ∧ w.extractLsb' 4 12 = 0#12 ∧ 9 ≤ (w.extractLsb' 0 4).toNat) ∧
  (∃ e, decode 0#32 = .error e)

/-- R92, R263: the displacement of a decoded `VLD`, `VST` or `VPREF` is the word's bits 15..0 sign-extended, unscaled, added
to the base modulo 2^32. -/
def Obligations.DisplacementIsSignExtended : Prop :=
  ∀ (w : Word) (r : VReg) (hint : Nat) (sb : SReg) (off : Int),
    decode w = .ok (.vld r sb off) ∨ decode w = .ok (.vst r sb off) ∨ decode w = .ok (.vpref hint sb off) →
    -32768 ≤ off ∧ off ≤ 32767 ∧
      ∀ s : State, s.address sb off = s.readS sb + (w.extractLsb' 0 16).signExtend 32

/-! ### Steps and faults (spec/10_state.md, spec/20_memory.md, spec/60_exceptions.md) -/

/-- R301, R306: a fetch that would pass the end of IMEM takes FETCH_FAULT(pc). -/
def Obligations.FetchFaultTaken : Prop :=
  ∀ s : State, s.seq = .running → s.imemSize < s.pc.toNat + 4 →
    ∃ t, step s = .next t ∧ FaultTaken .fetchFault s.pc s t

/-- R302, R306: a fetched word that is no instruction takes ILLEGAL_INSTRUCTION(word). -/
def Obligations.IllegalInstructionTaken : Prop :=
  ∀ (s : State) (e : DecodeError), s.seq = .running → s.pc.toNat + 4 ≤ s.imemSize →
    decode (s.imem.readWord s.pc.toNat) = .error e →
    ∃ t, step s = .next t ∧ FaultTaken .illegalInstruction (s.imem.readWord s.pc.toNat) s t

/-- R67, R68, R264, R306: `VLD` and `VST` take MISALIGNED_ACCESS(EA) when EA is no multiple of 16, whether or not it is in
range, and ACCESS_FAULT(EA) when an aligned EA is not wholly inside DMEM. -/
def Obligations.AccessFaultsTaken : Prop :=
  ∀ (s : State) (vt : VReg) (sb : SReg) (off : Int), ∀ i ∈ [Instr.vld vt sb off, Instr.vst vt sb off],
    ((s.address sb off).toNat % 16 ≠ 0 →
      ∃ t, exec i s = .next t ∧ FaultTaken .misalignedAccess (s.address sb off) s t) ∧
    ((s.address sb off).toNat % 16 = 0 → s.dmemSize < (s.address sb off).toNat + 16 →
      ∃ t, exec i s = .next t ∧ FaultTaken .accessFault (s.address sb off) s t)

/-- R304: the step that takes a fault writes no register and no memory byte and does not advance pc. -/
def Obligations.FaultsArePrecise : Prop :=
  ∀ s t : State, step s = .next t → t.seq = .faulted →
    FaultTaken t.faultCause t.faultInfo s t ∧ t.faultCause ≠ .none

/-- R316 as the model takes it (log entry 4): IDLE, HALTED and FAULTED have no next step. -/
def Obligations.StoppedSequencerHasNoStep : Prop :=
  ∀ s : State, s.seq ≠ .running → step s = .fault .sequencerStopped

/-- R38, R39, R290: a step that takes no fault adds 4 to pc modulo 2^32; no step sets pc to anything else. -/
def Obligations.PcAdvancesByFour : Prop :=
  ∀ s t : State, step s = .next t →
    (t.seq ≠ .faulted → t.pc.toNat = (s.pc.toNat + 4) % 2 ^ 32) ∧ (t.seq = .faulted → t.pc = s.pc)

/-- R293, R300, R309: only `HALT` and a fault stop the sequencer, and a step that does not stop it leaves the fault registers
alone. -/
def Obligations.OnlyHaltAndFaultsStop : Prop :=
  ∀ s t : State, step s = .next t →
    (t.seq = .running ∧ SameControl s t) ∨
    (t.seq = .halted ∧ s.fetch = .ok .halt) ∨
    (t.seq = .faulted ∧ t.faultCause ≠ .none)

/-- R61, R80, R346, R9: the sequencer never writes IMEM, START_PC or the memory sizes. -/
def Obligations.SequencerNeverWritesImem : Prop :=
  ∀ s t : State, step s = .next t →
    t.imem = s.imem ∧ t.startPc = s.startPc ∧ t.imemSize = s.imemSize ∧ t.dmemSize = s.dmemSize

/-- R62, R73: a step that changes DMEM runs a `VST`, and every byte outside the 16 it names reads as before. -/
def Obligations.OnlyStoresChangeDmem : Prop :=
  ∀ s t : State, step s = .next t → t.dmem ≠ s.dmem →
    ∃ vt sb off, s.fetch = .ok (.vst vt sb off) ∧
      ∀ a, a < (s.address sb off).toNat ∨ (s.address sb off).toNat + 16 ≤ a → t.dmem.read a = s.dmem.read a

/-- Every step keeps the rules of `State.Inv`: canonical memories inside their sizes, aligned pc and START_PC, fault registers
that report exactly the fault that stopped the sequencer. -/
def Obligations.StepKeepsInvariant : Prop :=
  ∀ s t : State, s.Inv → step s = .next t → t.Inv

/-- The state right after reset meets the invariant (the sizes are the model's choice, log entry 2). -/
def Obligations.ResetMeetsInvariant : Prop :=
  State.reset.Inv

/-- R354: with IMEM_SIZE below 2^32 every run ends, within `(IMEM_SIZE − pc)/4 + 1` steps. -/
def Obligations.RunsEnd : Prop :=
  ∀ s : State, s.imemSize < 2 ^ 32 → s.seq = .running →
    ∃ k t, k ≤ (s.imemSize - s.pc.toNat) / 4 + 1 ∧ steps k s = .next t ∧ t.ended = true

/-! ### Construction, bitwise logic (spec/40_construction_access.md, spec/41_bitwise.md) -/

/-- R131: lane X from S[sx], …, W from S[sw], bit for bit. -/
def Obligations.VmakeBuildsVector : Prop :=
  ∀ (s : State) (vd : VReg) (sx sy sz sw : SReg), RetiresV (.vmake vd sx sy sz sw) s vd fun v =>
    lane v .x = s.readS sx ∧ lane v .y = s.readS sy ∧ lane v .z = s.readS sz ∧ lane v .w = s.readS sw

/-- R132: S[sd] takes bits 32k+31..32k of V[va]; R133: lane k of V[vd] takes S[sa], the other three lanes are kept. -/
def Obligations.LaneAccess : Prop :=
  (∀ (s : State) (sd : SReg) (va : VReg) (k : Lane), RetiresS (.vext sd va k) s sd fun x =>
    ∀ i < 32, x.getLsbD i = (s.readV va).getLsbD (32 * laneNumber k + i)) ∧
  (∀ (s : State) (vd : VReg) (sa : SReg) (k : Lane), RetiresV (.vins vd sa k) s vd fun v =>
    lane v k = s.readS sa ∧ ∀ j, j ≠ k → lane v j = lane (s.readV vd) j)

/-- R141-R144: each of the 128 result bits is the Boolean function of the two operand bits; `VANDN` complements the first. -/
def Obligations.BitwiseOnRawBits : Prop :=
  ∀ (s : State) (vd va vb : VReg),
    (RetiresV (.vand vd va vb) s vd fun v =>
      ∀ i < 128, v.getLsbD i = ((s.readV va).getLsbD i && (s.readV vb).getLsbD i)) ∧
    (RetiresV (.vor vd va vb) s vd fun v =>
      ∀ i < 128, v.getLsbD i = ((s.readV va).getLsbD i || (s.readV vb).getLsbD i)) ∧
    (RetiresV (.vxor vd va vb) s vd fun v =>
      ∀ i < 128, v.getLsbD i = ((s.readV va).getLsbD i ^^ (s.readV vb).getLsbD i)) ∧
    (RetiresV (.vandn vd va vb) s vd fun v =>
      ∀ i < 128, v.getLsbD i = (!(s.readV va).getLsbD i && (s.readV vb).getLsbD i))

/-! ### Arithmetic (spec/42_arithmetic.md, spec/43_horizontal.md) -/

/-- R170-R175: lane k of the result is the primitive of lane k of the operands, in operand order. -/
def Obligations.LanewiseArithmetic : Prop :=
  ∀ (s : State) (vd va vb : VReg),
    (RetiresV (.vadd vd va vb) s vd fun v => ∀ k, lane v k = f32Add (lane (s.readV va) k) (lane (s.readV vb) k)) ∧
    (RetiresV (.vsub vd va vb) s vd fun v => ∀ k, lane v k = f32Sub (lane (s.readV va) k) (lane (s.readV vb) k)) ∧
    (RetiresV (.vmul vd va vb) s vd fun v => ∀ k, lane v k = f32Mul (lane (s.readV va) k) (lane (s.readV vb) k)) ∧
    (RetiresV (.vdiv vd va vb) s vd fun v => ∀ k, lane v k = f32Div (lane (s.readV va) k) (lane (s.readV vb) k)) ∧
    (RetiresV (.vmin vd va vb) s vd fun v => ∀ k, lane v k = f32Min (lane (s.readV va) k) (lane (s.readV vb) k)) ∧
    (RetiresV (.vmax vd va vb) s vd fun v => ∀ k, lane v k = f32Max (lane (s.readV va) k) (lane (s.readV vb) k))

/-- R176-R178: lane k of the result is the primitive of lane k of the operand. -/
def Obligations.LanewiseRoots : Prop :=
  ∀ (s : State) (vd va : VReg),
    (RetiresV (.vrcp vd va) s vd fun v => ∀ k, lane v k = f32Rcp (lane (s.readV va) k)) ∧
    (RetiresV (.vsqrt vd va) s vd fun v => ∀ k, lane v k = f32Sqrt (lane (s.readV va) k)) ∧
    (RetiresV (.vrsqrt vd va) s vd fun v => ∀ k, lane v k = f32Rsqrt (lane (s.readV va) k))

/-- R191-R193: which lanes meet in each lane of the result, and in which order. -/
def Obligations.HorizontalPairs : Prop :=
  ∀ (s : State) (vd va vb : VReg),
    (RetiresV (.vhadd vd va vb) s vd fun v =>
      lane v .x = f32Add (lane (s.readV va) .x) (lane (s.readV va) .y) ∧
      lane v .y = f32Add (lane (s.readV va) .z) (lane (s.readV va) .w) ∧
      lane v .z = f32Add (lane (s.readV vb) .x) (lane (s.readV vb) .y) ∧
      lane v .w = f32Add (lane (s.readV vb) .z) (lane (s.readV vb) .w)) ∧
    (RetiresV (.vhsub vd va vb) s vd fun v =>
      lane v .x = f32Sub (lane (s.readV va) .x) (lane (s.readV va) .y) ∧
      lane v .y = f32Sub (lane (s.readV va) .z) (lane (s.readV va) .w) ∧
      lane v .z = f32Sub (lane (s.readV vb) .x) (lane (s.readV vb) .y) ∧
      lane v .w = f32Sub (lane (s.readV vb) .z) (lane (s.readV vb) .w)) ∧
    (RetiresV (.vaddsub vd va vb) s vd fun v =>
      lane v .x = f32Sub (lane (s.readV va) .x) (lane (s.readV vb) .x) ∧
      lane v .y = f32Add (lane (s.readV va) .y) (lane (s.readV vb) .y) ∧
      lane v .z = f32Sub (lane (s.readV va) .z) (lane (s.readV vb) .z) ∧
      lane v .w = f32Add (lane (s.readV va) .w) (lane (s.readV vb) .w))

/-- R153-R155: `round32` of a nonzero rational has its sign and, below the overflow threshold `2^128 − 2^103`, is a finite
pattern nearest to it, with an even significand where another finite value is equally near; from the threshold up it is
infinity. -/
def Obligations.RoundingIsNearestEven : Prop :=
  ∀ r : Frac, 0 < r.den → r.num ≠ 0 →
    sign (round32 r) = decide (r.num < 0) ∧
    (|r.toRat| < 2 ^ 128 - 2 ^ 103 →
      isFinite (round32 r) = true ∧
      ∀ z : Word, isFinite z = true →
        |(value (round32 r)).toRat - r.toRat| ≤ |(value z).toRat - r.toRat| ∧
        ((value z).toRat ≠ (value (round32 r)).toRat →
          |(value (round32 r)).toRat - r.toRat| = |(value z).toRat - r.toRat| → (round32 r).getLsbD 0 = false)) ∧
    (2 ^ 128 - 2 ^ 103 ≤ |r.toRat| → round32 r = infOf (decide (r.num < 0)))

/-- R157: the first NaN operand is returned quieted, its sign and payload kept. -/
def Obligations.NanPropagation : Prop :=
  ∀ f ∈ [f32Add, f32Sub, f32Mul, f32Div], ∀ a b : Word,
    (isNaN a = true → f a b = quiet a) ∧
    (isNaN a = false → isNaN b = true → f a b = quiet b) ∧
    (∀ i, i ≠ 22 → (quiet a).getLsbD i = a.getLsbD i) ∧ (quiet a).getLsbD 22 = true

/-- R158: every invalid operation without a NaN operand gives DEFAULT_NAN. -/
def Obligations.InvalidOperationsGiveDefaultNan : Prop :=
  ∀ a b : Word,
    (isInf a = true → isInf b = true → sign a ≠ sign b → f32Add a b = 0xFFC00000#32) ∧
    (isInf a = true → isInf b = true → sign a = sign b → f32Sub a b = 0xFFC00000#32) ∧
    (isZero a = true → isInf b = true → f32Mul a b = 0xFFC00000#32) ∧
    (isInf a = true → isZero b = true → f32Mul a b = 0xFFC00000#32) ∧
    (isZero a = true → isZero b = true → f32Div a b = 0xFFC00000#32) ∧
    (isInf a = true → isInf b = true → f32Div a b = 0xFFC00000#32) ∧
    (isNaN a = false → sign a = true → isZero a = false → f32Sqrt a = 0xFFC00000#32)

/-- R159: the sum of finite operands is the exact sum rounded once, an exact zero sum is +0 but for two zeros of one sign, an
infinity absorbs what is no NaN and not the opposite infinity, and the order of operands that are no NaN does not matter. -/
def Obligations.SumIsRoundedOnce : Prop :=
  ∀ a b : Word,
    (isFinite a = true → isFinite b = true →
      ((value a).toRat + (value b).toRat ≠ 0 → RoundsTo (f32Add a b) ((value a).toRat + (value b).toRat)) ∧
      ((value a).toRat + (value b).toRat = 0 →
        f32Add a b = if isZero a && isZero b && (sign a == sign b) then a else 0x00000000#32)) ∧
    (isInf a = true → isNaN b = false → (isInf b = true → sign a = sign b) → f32Add a b = a) ∧
    (isNaN a = false → isNaN b = false → f32Add a b = f32Add b a)

/-- R160: the difference of finite operands is the exact difference rounded once, an exact zero difference is +0 but for two
zeros of opposite signs, and differences with an infinity; a finite value minus itself is +0. -/
def Obligations.DifferenceIsRoundedOnce : Prop :=
  (∀ a b : Word,
    (isFinite a = true → isFinite b = true →
      ((value a).toRat - (value b).toRat ≠ 0 → RoundsTo (f32Sub a b) ((value a).toRat - (value b).toRat)) ∧
      ((value a).toRat - (value b).toRat = 0 →
        f32Sub a b = if isZero a && isZero b && (sign a != sign b) then a else 0x00000000#32)) ∧
    (isInf a = true → isNaN b = false → (isInf b = true → sign a ≠ sign b) → f32Sub a b = a) ∧
    (isFinite a = true → isInf b = true → f32Sub a b = infOf (!sign b))) ∧
  (∀ a : Word, isFinite a = true → f32Sub a a = 0x00000000#32) ∧
  f32Sub 0x00000000#32 0x00000000#32 = 0x00000000#32 ∧ f32Sub 0x80000000#32 0x00000000#32 = 0x80000000#32

/-- R161, R162: the product and the quotient of finite operands are the exact ones rounded once, those with a zero or an
infinity are a zero or an infinity, and each that is no NaN has the exclusive or of the operand signs. -/
def Obligations.ProductAndQuotientAreRoundedOnce : Prop :=
  ∀ a b : Word,
    (isFinite a = true → isFinite b = true →
      ((value a).toRat * (value b).toRat ≠ 0 → RoundsTo (f32Mul a b) ((value a).toRat * (value b).toRat)) ∧
      ((value a).toRat * (value b).toRat = 0 → f32Mul a b = zeroOf (sign a ^^ sign b)) ∧
      ((value a).toRat ≠ 0 → (value b).toRat ≠ 0 → RoundsTo (f32Div a b) ((value a).toRat / (value b).toRat)) ∧
      ((value a).toRat ≠ 0 → (value b).toRat = 0 → f32Div a b = infOf (sign a ^^ sign b)) ∧
      ((value a).toRat = 0 → (value b).toRat ≠ 0 → f32Div a b = zeroOf (sign a ^^ sign b))) ∧
    (isInf a = true → isNaN b = false → isZero b = false →
      f32Mul a b = infOf (sign a ^^ sign b) ∧ f32Mul b a = infOf (sign a ^^ sign b)) ∧
    (isInf a = true → isFinite b = true → f32Div a b = infOf (sign a ^^ sign b)) ∧
    (isFinite a = true → isInf b = true → f32Div a b = zeroOf (sign a ^^ sign b)) ∧
    (isNaN (f32Mul a b) = false → sign (f32Mul a b) = (sign a ^^ sign b)) ∧
    (isNaN (f32Div a b) = false → sign (f32Div a b) = (sign a ^^ sign b))

/-- R163: away from NaNs the order of values is the order of an integer read from the bits. -/
def Obligations.OrderIsIntegerOrder : Prop :=
  ∀ a b : Word, isNaN a = false → isNaN b = false →
    f32Lt a b = decide (orderKey a < orderKey b) ∧ f32Eq a b = decide (orderKey a = orderKey b) ∧
    f32Le a b = decide (orderKey a ≤ orderKey b)

/-- R164: min and max return the second operand when either is a NaN and when the two are equal (zeros of either sign among
them), and return one operand of two equal patterns. -/
def Obligations.MinMaxSecondOperand : Prop :=
  ∀ a b : Word,
    (isNaN a = true ∨ isNaN b = true → f32Min a b = b ∧ f32Max a b = b) ∧
    (f32Eq a b = true → f32Min a b = b ∧ f32Max a b = b) ∧
    (f32Lt a b = true → f32Min a b = a ∧ f32Max a b = b) ∧
    (f32Lt b a = true → f32Min a b = b ∧ f32Max a b = a) ∧
    f32Min a a = a ∧ f32Max a a = a

/-- R165: widening a finite pattern to binary64 changes neither its value nor its sign; `round64` rounds a nonzero rational to
the nearest binary64 pattern as R153 does below the threshold `2^1024 − 2^970`, and to infinity from there up; narrowing rounds
the value once. -/
def Obligations.WideningIsExactAndNarrowingRoundsOnce : Prop :=
  (∀ x : Word, isFinite x = true →
    binary64.isFinite (f64FromF32 x) = true ∧ (binary64.value (f64FromF32 x)).toRat = (value x).toRat ∧
    binary64.sign (f64FromF32 x) = sign x) ∧
  (∀ r : Frac, 0 < r.den → r.num ≠ 0 →
    binary64.sign (binary64.round 64 r) = decide (r.num < 0) ∧
    (|r.toRat| < 2 ^ 1024 - 2 ^ 970 → binary64.IsNearestEven (binary64.round 64 r) (r.toRat : ℝ)) ∧
    (2 ^ 1024 - 2 ^ 970 ≤ |r.toRat| → binary64.round 64 r = inf64Of (decide (r.num < 0)))) ∧
  (∀ y : DWord, binary64.isFinite y = true → binary64.isZero y = false →
    RoundsTo (f32FromF64 y) (binary64.value y).toRat)

/-- R165: the binary64 reciprocal is `round64` of the exact one; the binary64 square root of a positive finite pattern is the
pattern nearest to the real root; and its rounding takes the integer nearest to the root of `n / d`, the even one at a tie. -/
def Obligations.Binary64ReciprocalAndSquareRoot : Prop :=
  (∀ y : DWord, binary64.isFinite y = true → binary64.isZero y = false →
    ∃ r : Frac, 0 < r.den ∧ r.toRat = 1 / (binary64.value y).toRat ∧ f64OneDiv y = binary64.round 64 r) ∧
  (∀ y : DWord, binary64.isFinite y = true → binary64.isZero y = false → binary64.sign y = false →
    binary64.sign (f64Sqrt y) = false ∧
    binary64.IsNearestEven (f64Sqrt y) (Real.sqrt ((binary64.value y).toRat : ℝ))) ∧
  (∀ n d : Nat, 0 < d →
    4 * n ≤ d * (2 * nearestEvenSqrt n d + 1) ^ 2 ∧
    (0 < nearestEvenSqrt n d → d * (2 * nearestEvenSqrt n d - 1) ^ 2 ≤ 4 * n) ∧
    (4 * n = d * (2 * nearestEvenSqrt n d + 1) ^ 2 → nearestEvenSqrt n d % 2 = 0) ∧
    (0 < nearestEvenSqrt n d → 4 * n = d * (2 * nearestEvenSqrt n d - 1) ^ 2 → nearestEvenSqrt n d % 2 = 0))

/-- R166: each primitive is its binary64 path from widening to narrowing, for every operand; and what that gives for zeros,
infinities, NaNs and values below zero. -/
def Obligations.ReciprocalAndRoots : Prop :=
  (∀ x : Word, f32Rcp x = f32FromF64 (f64OneDiv (f64FromF32 x)) ∧ f32Sqrt x = f32FromF64 (f64Sqrt (f64FromF32 x)) ∧
    f32Rsqrt x = f32FromF64 (f64OneDiv (f64Sqrt (f64FromF32 x)))) ∧
  (∀ x : Word, isNaN x = true → f32Rcp x = quiet x ∧ f32Sqrt x = quiet x ∧ f32Rsqrt x = quiet x) ∧
  (∀ x : Word, isZero x = true → f32Rcp x = infOf (sign x) ∧ f32Sqrt x = x ∧ f32Rsqrt x = infOf (sign x)) ∧
  (∀ x : Word, isInf x = true → f32Rcp x = zeroOf (sign x)) ∧
  (∀ x : Word, isInf x = true → sign x = false → f32Sqrt x = x ∧ f32Rsqrt x = 0x00000000#32) ∧
  (∀ x : Word, isNaN x = false → isZero x = false → sign x = true →
    f32Sqrt x = 0xFFC00000#32 ∧ f32Rsqrt x = 0xFFC00000#32)

/-! ### Permute, compare, reinterpret (spec/44_permute.md, spec/45_compare.md, spec/46_reinterpret.md) -/

/-- R201-R204: which lane each lane of the result is. -/
def Obligations.DuplicateAndInterleave : Prop :=
  ∀ (s : State) (vd va vb : VReg),
    (RetiresV (.vdupl vd va) s vd fun v =>
      lane v .x = lane (s.readV va) .x ∧ lane v .y = lane (s.readV va) .x ∧
      lane v .z = lane (s.readV va) .z ∧ lane v .w = lane (s.readV va) .z) ∧
    (RetiresV (.vduph vd va) s vd fun v =>
      lane v .x = lane (s.readV va) .y ∧ lane v .y = lane (s.readV va) .y ∧
      lane v .z = lane (s.readV va) .w ∧ lane v .w = lane (s.readV va) .w) ∧
    (RetiresV (.vilvl vd va vb) s vd fun v =>
      lane v .x = lane (s.readV va) .x ∧ lane v .y = lane (s.readV vb) .x ∧
      lane v .z = lane (s.readV va) .y ∧ lane v .w = lane (s.readV vb) .y) ∧
    (RetiresV (.vilvh vd va vb) s vd fun v =>
      lane v .x = lane (s.readV va) .z ∧ lane v .y = lane (s.readV vb) .z ∧
      lane v .z = lane (s.readV va) .w ∧ lane v .w = lane (s.readV vb) .w)

/-- R94, R205: destination lane d takes the source lane whose number is `sel[2d+1:2d]`. -/
def Obligations.ShuffleSelectsLanes : Prop :=
  ∀ (s : State) (vd va : VReg) (sel : BitVec 8), RetiresV (.vshuf vd va sel) s vd fun v =>
    ∀ d k : Lane, sel.toNat / 4 ^ laneNumber d % 4 = laneNumber k → lane v d = lane (s.readV va) k

/-- R206: the duplicates are shuffles, and the interleaves are when both sources are one register. -/
def Obligations.DuplicatesAreShuffles : Prop :=
  ∀ (s : State) (vd va : VReg),
    exec (.vdupl vd va) s = exec (.vshuf vd va 0xA0#8) s ∧ exec (.vduph vd va) s = exec (.vshuf vd va 0xF5#8) s ∧
    exec (.vilvl vd va va) s = exec (.vshuf vd va 0x50#8) s ∧ exec (.vilvh vd va va) s = exec (.vshuf vd va 0xFA#8) s

/-- R220-R229: each lane is all ones where the relation holds and all zeros where it does not. -/
def Obligations.ComparisonsWriteMasks : Prop :=
  ∀ (s : State) (vd va vb : VReg),
    let mask (p : Word → Word → Bool) (v : VWord) : Prop := ∀ k,
      (p (lane (s.readV va) k) (lane (s.readV vb) k) = true → lane v k = 0xFFFFFFFF#32) ∧
      (p (lane (s.readV va) k) (lane (s.readV vb) k) = false → lane v k = 0x00000000#32)
    RetiresV (.vcmpeq vd va vb) s vd (mask f32Eq) ∧
    RetiresV (.vcmplt vd va vb) s vd (mask f32Lt) ∧
    RetiresV (.vcmple vd va vb) s vd (mask f32Le) ∧
    RetiresV (.vcmpunord vd va vb) s vd (mask f32Unord) ∧
    RetiresV (.vcmpneq vd va vb) s vd (mask fun x y => !f32Eq x y) ∧
    RetiresV (.vcmpnlt vd va vb) s vd (mask fun x y => !f32Lt x y) ∧
    RetiresV (.vcmpnle vd va vb) s vd (mask fun x y => !f32Le x y) ∧
    RetiresV (.vcmpord vd va vb) s vd (mask fun x y => !f32Unord x y)

/-- R230: on ordered lanes "not less than" is "less or equal" with the operands exchanged and "not less or equal" is "less
than" with the operands exchanged; on unordered lanes neither relation holds in either order. -/
def Obligations.NegatedComparisons : Prop :=
  ∀ a b : Word,
    (f32Unord a b = false → (!f32Lt a b) = f32Le b a ∧ (!f32Le a b) = f32Lt b a) ∧
    (f32Unord a b = true → f32Lt a b = false ∧ f32Le a b = false ∧ f32Lt b a = false ∧ f32Le b a = false ∧
      f32Eq a b = false)

/-- R241: every cast copies all 128 bits. -/
def Obligations.CastsCopyAllBits : Prop :=
  ∀ cast ∈ castInstrs, ∀ (s : State) (vd va : VReg), RetiresV (cast vd va) s vd fun v => v = s.readV va

/-- R251: any two casts in a row give the original bits. -/
def Obligations.CastRoundTrip : Prop :=
  ∀ first ∈ castInstrs, ∀ second ∈ castInstrs, ∀ (s : State) (va vb vc : VReg),
    ∃ t, execAll [first vb va, second vc vb] s = .next t ∧ t.readV vc = s.readV va

/-- R66: lane j of every view of a loaded vector is the little-endian number of its bytes in memory. -/
def Obligations.ViewsAreMemoryOrder : Prop :=
  ∀ (view : View) (m : Memory) (a j : Nat), j < viewLanes view →
    (viewLane view (m.readVector a) j).toNat = m.readLE (a + j * (viewWidth view / 8)) (viewWidth view / 8)

/-! ### Load, store, prefetch, scalar and system (spec/47_load_store.md, spec/48_scalar_system.md) -/

/-- R260: an aligned load inside DMEM puts the byte at EA + k in bits 8k+7..8k. -/
def Obligations.LoadReadsBytes : Prop :=
  ∀ (s : State) (vt : VReg) (sb : SReg) (off : Int),
    (s.address sb off).toNat % 16 = 0 → (s.address sb off).toNat + 16 ≤ s.dmemSize →
    RetiresV (.vld vt sb off) s vt fun v =>
      ∀ k < 16, v.extractLsb' (8 * k) 8 = s.dmem.read ((s.address sb off).toNat + k)

/-- R261: an aligned store inside DMEM puts bits 8k+7..8k in the byte at EA + k and changes nothing else but pc. -/
def Obligations.StoreWritesBytes : Prop :=
  ∀ (s : State) (vt : VReg) (sb : SReg) (off : Int),
    (s.address sb off).toNat % 16 = 0 → (s.address sb off).toNat + 16 ≤ s.dmemSize →
    ∃ t, exec (.vst vt sb off) s = .next t ∧
      (∀ k < 16, t.dmem.read ((s.address sb off).toNat + k) = (s.readV vt).extractLsb' (8 * k) 8) ∧
      (∀ a, a < (s.address sb off).toNat ∨ (s.address sb off).toNat + 16 ≤ a → t.dmem.read a = s.dmem.read a) ∧
      SameV (fun _ => False) s t ∧ SameS (fun _ => False) s t ∧ SameImem s t ∧ SameControl s t ∧ t.pc = s.pc + 4#32

/-- R261, R363: a load of the address just stored to returns the stored bits. -/
def Obligations.StoreThenLoad : Prop :=
  ∀ (s : State) (vt vu : VReg) (sb : SReg) (off : Int),
    (s.address sb off).toNat % 16 = 0 → (s.address sb off).toNat + 16 ≤ s.dmemSize →
    ∃ t, execAll [.vst vt sb off, .vld vu sb off] s = .next t ∧ t.readV vu = s.readV vt

/-- R262, R283: `VPREF`, with any hint and any address, and `NOP` change nothing but pc. -/
def Obligations.PrefetchAndNopOnlyAdvance : Prop :=
  (∀ (s : State) (hint : Nat) (sb : SReg) (off : Int), ∃ t, exec (.vpref hint sb off) s = .next t ∧ FramePc s t) ∧
  (∀ s : State, ∃ t, exec .nop s = .next t ∧ FramePc s t)

/-- R281: `LIL` gives the immediate as a number; R282: `LIH` puts it above the kept low half. -/
def Obligations.ScalarImmediates : Prop :=
  ∀ (s : State) (sd : SReg) (imm16 : BitVec 16),
    (RetiresS (.lil sd imm16) s sd fun x => x.toNat = imm16.toNat) ∧
    (RetiresS (.lih sd imm16) s sd fun x => x.toNat = imm16.toNat * 2 ^ 16 + (s.readS sd).toNat % 2 ^ 16)

/-- R293: `HALT` advances pc, sets STATE to HALTED and changes nothing else. -/
def Obligations.HaltStops : Prop :=
  ∀ s : State, ∃ t, exec .halt s = .next t ∧ t.pc = s.pc + 4#32 ∧ t.seq = .halted ∧
    SameV (fun _ => False) s t ∧ SameS (fun _ => False) s t ∧ SameImem s t ∧ SameDmem s t ∧
    t.startPc = s.startPc ∧ t.faultCause = s.faultCause ∧ t.faultPc = s.faultPc ∧ t.faultInfo = s.faultInfo ∧
    t.imemSize = s.imemSize ∧ t.dmemSize = s.dmemSize ∧ t.resets = s.resets

/-- R105: the expansion of `LI` leaves the whole constant in Sd. -/
def Obligations.LoadImmediatePair : Prop :=
  ∀ (s : State) (sd : SReg) (imm32 : Word),
    ∃ t, execAll (expand (.li sd imm32)) s = .next t ∧ t.readS sd = imm32 ∧ SameS (· = sd) s t

/-- R105: the expansion of `VSEL`, with the operands it asks for, selects bit by bit: Vm ? Va : Vb; it clobbers Vt only. -/
def Obligations.SelectExpansion : Prop :=
  ∀ (s : State) (vd vm va vb vt : VReg), (Pseudo.vsel vd vm va vb vt).usable = true →
    ∃ t, execAll (expand (.vsel vd vm va vb vt)) s = .next t ∧
      (∀ i < 128, (t.readV vd).getLsbD i =
        if (s.readV vm).getLsbD i then (s.readV va).getLsbD i else (s.readV vb).getLsbD i) ∧
      SameV (fun r => r = vd ∨ r = vt) s t

/-! ### Reset and the host (spec/10_state.md R41-R46, spec/70_reset_and_hazards.md) -/

/-- R46, R340: the control state right after reset, and after a reset asserted in any state. -/
def Obligations.ResetControlState : Prop :=
  ∀ t : State, (t = State.reset ∨ ∃ s, hostAct .reset s = .next t) →
    t.seq = .idle ∧ t.pc = 0 ∧ t.startPc = 0 ∧ t.faultCause = .none ∧ t.faultPc = 0 ∧ t.faultInfo = 0 ∧
    ∀ offset, t.readWindow offset = 0#32

/-- R345: the START action, a host write of a word with bit 0 set to CTRL while not RUNNING. -/
def Obligations.StartAction : Prop :=
  ∀ (s : State) (x : Word), s.seq ≠ .running → x.getLsbD 0 = true →
    ∃ t, hostAct (.writeWindow 0x00 x) s = .next t ∧ t.pc = s.startPc ∧ t.faultCause = .none ∧ t.faultPc = 0 ∧
      t.faultInfo = 0 ∧ t.seq = .running ∧ t.vregs = s.vregs ∧ t.sregs = s.sregs ∧ t.imem = s.imem ∧
      t.dmem = s.dmem ∧ t.startPc = s.startPc ∧ t.imemSize = s.imemSize ∧ t.dmemSize = s.dmemSize ∧ t.resets = s.resets

/-- R346: while RUNNING a START is ignored, and a write of START_PC changes START_PC only, which the next START copies. -/
def Obligations.StartWhileRunning : Prop :=
  ∀ (s : State) (x : Word), s.seq = .running →
    hostAct (.writeWindow 0x00 x) s = .next s ∧
    ∃ t, hostAct (.writeWindow 0x08 x) s = .next t ∧ t = { s with startPc := t.startPc } ∧ t.pc = s.pc ∧
      t.start.pc = t.startPc ∧ ∀ i < 32, t.startPc.getLsbD i = (x.getLsbD i && decide (2 ≤ i))

/-- R41-R44: what each offset of the control window reads; writes to read-only registers and to other offsets, and a write of
CTRL with bit 0 clear, do nothing. An offset inside a register's four bytes is one of the other offsets: that is the model's
reading (log entry 10) of R41, which speaks of word offsets. -/
def Obligations.ControlWindow : Prop :=
  ∀ (s : State) (offset : Nat) (x : Word),
    s.readWindow 0x00 = 0#32 ∧ s.readWindow 0x08 = s.startPc ∧ s.readWindow 0x0C = s.pc ∧
    s.readWindow 0x14 = s.faultPc ∧ s.readWindow 0x18 = s.faultInfo ∧
    (s.readWindow 0x10).toNat =
      (match s.faultCause with
        | .none => 0 | .illegalInstruction => 1 | .fetchFault => 2 | .misalignedAccess => 3 | .accessFault => 4) ∧
    (s.readWindow 0x04).toNat = (match s.seq with | .idle => 0 | .running => 1 | .halted => 2 | .faulted => 3) ∧
    (offset ∉ windowOffsets → s.readWindow offset = 0#32) ∧
    (offset ≠ 0x00 → offset ≠ 0x08 → hostAct (.writeWindow offset x) s = .next s) ∧
    (x.getLsbD 0 = false → hostAct (.writeWindow 0x00 x) s = .next s)

/-- R352 as the model takes it (log entry 8): while RUNNING every host access to a register or memory is refused. -/
def Obligations.HostRefusedWhileRunning : Prop :=
  ∀ s : State, s.seq = .running →
    (∀ r x, hostAct (.writeV r x) s = .refused .hostAccessWhileRunning) ∧
    (∀ r x, hostAct (.writeS r x) s = .refused .hostAccessWhileRunning) ∧
    (∀ a x, hostAct (.writeImem a x) s = .refused .hostAccessWhileRunning) ∧
    (∀ a x, hostAct (.writeDmem a x) s = .refused .hostAccessWhileRunning) ∧
    (∀ r, s.hostReadV r = .refused .hostAccessWhileRunning) ∧
    (∀ r, s.hostReadS r = .refused .hostAccessWhileRunning) ∧
    (∀ a, s.hostReadImem a = .refused .hostAccessWhileRunning) ∧
    (∀ a, s.hostReadDmem a = .refused .hostAccessWhileRunning)

/-- R347, R348: while not RUNNING a host write of an existing place is what the host reads back there. -/
def Obligations.HostReadsWhatItWrote : Prop :=
  ∀ s : State, s.seq ≠ .running →
    (∀ r x, ∃ t, hostAct (.writeV r x) s = .next t ∧ t.hostReadV r = .next x) ∧
    (∀ r x, ∃ t, hostAct (.writeS r x) s = .next t ∧ t.hostReadS r = .next x) ∧
    (∀ a x, a < s.imemSize → ∃ t, hostAct (.writeImem a x) s = .next t ∧ t.hostReadImem a = .next x ∧
      ∀ b, b ≠ a → t.imem.read b = s.imem.read b) ∧
    (∀ a x, a < s.dmemSize → ∃ t, hostAct (.writeDmem a x) s = .next t ∧ t.hostReadDmem a = .next x ∧
      ∀ b, b ≠ a → t.dmem.read b = s.dmem.read b)

/-- Every host operation keeps the invariant, a reset with its unspecified contents among them. -/
def Obligations.HostKeepsInvariant : Prop :=
  ∀ (op : HostOp) (s t : State), s.Inv → hostAct op s = .next t → t.Inv

/-- R350: after the launch sequence the sequencer is RUNNING at the start address, the program's words stand there in IMEM,
the input bytes in DMEM, no fault is recorded, a register named once holds the value given, and one not named is unchanged. -/
def Obligations.LaunchRunsProgram : Prop :=
  ∀ (s : State) (start : Nat) (program : List Word) (base : Nat) (input : List Byte) (vs : List (VReg × VWord))
    (ss : List (SReg × Word)), s.seq ≠ .running → start % 4 = 0 → start < 2 ^ 32 →
    start + 4 * program.length ≤ s.imemSize → base + input.length ≤ s.dmemSize →
    ∃ t, hostActs (launch start program base input vs ss) s = .next t ∧ t.seq = .running ∧ t.pc.toNat = start ∧
      t.faultCause = .none ∧ t.faultPc = 0 ∧ t.faultInfo = 0 ∧
      (∀ p ∈ vs, (vs.map Prod.fst).count p.1 = 1 → t.readV p.1 = p.2) ∧
      (∀ p ∈ ss, (ss.map Prod.fst).count p.1 = 1 → t.readS p.1 = p.2) ∧
      SameV (· ∈ vs.map Prod.fst) s t ∧ SameS (· ∈ ss.map Prod.fst) s t ∧
      (∀ j (h : j < program.length), t.imem.readWord (start + 4 * j) = program[j]) ∧
      (∀ j (h : j < input.length), t.dmem.read (base + j) = input[j])
end

