-- ==== Sys2Proof/Laws/Decode.lean ====
section
/-! SUPPORT. Cutting a word into columns and joining the columns are inverse to each other; masking works column by column. -/

namespace Sys2Proof

theorem Fields.getLsbD_toWord (f : Fields) (i : Nat) :
    f.toWord.getLsbD i =
      if i < 4 then f.n0.getLsbD i else if i < 8 then f.n1.getLsbD (i - 4) else if i < 12 then f.n2.getLsbD (i - 8)
      else if i < 16 then f.n3.getLsbD (i - 12) else if i < 20 then f.n4.getLsbD (i - 16)
      else if i < 24 then f.n5.getLsbD (i - 20) else f.op.getLsbD (i - 24) := by
  unfold Fields.toWord
  repeat rw [BitVec.getLsbD_append]
  grind

@[simp] theorem Fields.ofWord_toWord (f : Fields) : Fields.ofWord f.toWord = f := by
  rcases f with ⟨op, a, b, c, d, e, g⟩
  simp only [Fields.ofWord, Fields.mk.injEq]
  refine ⟨?_, ?_, ?_, ?_, ?_, ?_, ?_⟩ <;> apply BitVec.eq_of_getLsbD_eq <;> intro i hi <;>
    simp only [BitVec.getLsbD_extractLsb', Fields.getLsbD_toWord] <;> interval_cases i <;> simp

@[simp] theorem Fields.toWord_ofWord (w : Word) : (Fields.ofWord w).toWord = w := by
  apply BitVec.eq_of_getLsbD_eq
  intro i hi
  simp only [BitVec.getLsbD_extractLsb', Fields.getLsbD_toWord, Fields.ofWord]
  grind

theorem Fields.toWord_and (f g : Fields) :
    f.toWord &&& g.toWord = Fields.toWord ⟨f.op &&& g.op, f.n5 &&& g.n5, f.n4 &&& g.n4, f.n3 &&& g.n3, f.n2 &&& g.n2,
      f.n1 &&& g.n1, f.n0 &&& g.n0⟩ := by
  apply BitVec.eq_of_getLsbD_eq
  intro i hi
  simp only [BitVec.getLsbD_and, Fields.getLsbD_toWord]
  grind

@[simp] theorem vregOf_field (r : VReg) : vregOf r.field = r := rfl

@[simp] theorem sregOf_field (r : SReg) : sregOf r.field = r := rfl

@[simp] theorem VReg.field_vregOf (n : BitVec 4) : (vregOf n).field = n := rfl

@[simp] theorem SReg.field_sregOf (n : BitVec 4) : (sregOf n).field = n := rfl

/-- The bytes of a word, read back (R64). -/
@[simp] theorem wordOfBytes_bytes (w : Word) :
    wordOfBytes (w.extractLsb' 0 8) (w.extractLsb' 8 8) (w.extractLsb' 16 8) (w.extractLsb' 24 8) = w := by
  apply BitVec.eq_of_getLsbD_eq
  intro i hi
  unfold wordOfBytes
  repeat rw [BitVec.getLsbD_append]
  simp only [BitVec.getLsbD_extractLsb']
  grind

/-- Decoding the bytes of a word is decoding the word. -/
theorem decodeBytes_bytesOfWord (w : Word) (rest : List Byte) :
    decodeBytes (bytesOfWord w ++ rest) =
      match decode w with
      | .ok i => .ok (i, rest)
      | .error e => .error e := by
  simp only [bytesOfWord, decodeBytes, List.cons_append, wordOfBytes_bytes]
  cases decode w <;> rfl

end Sys2Proof
end

