-- ==== Sys2Proof/Laws/Float.lean ====
section
/-! SUPPORT. Exact fractions as rationals, and the value of a pattern: what `Frac`'s operations and `Format.value` are, so that
the primitives of Machine/Float.lean are reasoned about on rationals. -/

namespace Sys2Proof.Machine

/-! ### Fractions -/

theorem Frac.toRat_eq_zero {r : Frac} (h : 0 < r.den) : r.toRat = 0 ↔ r.num = 0 := by
  unfold Frac.toRat
  have : (r.den : ℚ) ≠ 0 := by positivity
  simp [this]

theorem Frac.den_add {r s : Frac} (hr : 0 < r.den) (hs : 0 < s.den) : 0 < (r.add s).den := Nat.mul_pos hr hs

theorem Frac.toRat_add {r s : Frac} (hr : 0 < r.den) (hs : 0 < s.den) : (r.add s).toRat = r.toRat + s.toRat := by
  have h1 : (r.den : ℚ) ≠ 0 := by positivity
  have h2 : (s.den : ℚ) ≠ 0 := by positivity
  simp only [Frac.toRat, Frac.add]
  push_cast
  field_simp

theorem Frac.den_mul {r s : Frac} (hr : 0 < r.den) (hs : 0 < s.den) : 0 < (r.mul s).den := Nat.mul_pos hr hs

theorem Frac.toRat_mul (r s : Frac) : (r.mul s).toRat = r.toRat * s.toRat := by
  simp only [Frac.toRat, Frac.mul]
  push_cast
  rw [div_mul_div_comm]

theorem Frac.den_div {r s : Frac} (hr : 0 < r.den) (hs : s.num ≠ 0) : 0 < (r.div s).den :=
  Nat.mul_pos hr (Int.natAbs_pos.mpr hs)

theorem Frac.toRat_div {r s : Frac} (hs : s.num ≠ 0) : (r.div s).toRat = r.toRat / s.toRat := by
  have habs : (s.num.natAbs : ℚ) = |(s.num : ℚ)| := by rw [← Int.cast_abs, Int.abs_eq_natAbs, Int.cast_natCast]
  rcases lt_or_gt_of_ne hs with h | h
  · have hq : (s.num : ℚ) < 0 := by exact_mod_cast h
    simp only [Frac.toRat, Frac.div, Int.sign_eq_neg_one_of_neg h]
    push_cast
    rw [habs, abs_of_neg hq, div_div_div_eq]
    simp [div_neg, neg_div]
  · have hq : 0 < (s.num : ℚ) := by exact_mod_cast h
    simp only [Frac.toRat, Frac.div, Int.sign_eq_one_of_pos h]
    push_cast
    rw [habs, abs_of_pos hq, div_div_div_eq]
    simp

/-! ### Values (R150, R165) -/

theorem Format.value_den_pos (f : Format) {w : Nat} (x : BitVec w) : 0 < (f.value x).den := Nat.two_pow_pos _

/-- The value of a pattern is zero exactly for the two zeros. -/
theorem Format.value_num_eq_zero (f : Format) {w : Nat} (x : BitVec w) : (f.value x).num = 0 ↔ f.isZero x = true := by
  have hp : 0 < 2 ^ f.fracBits := Nat.two_pow_pos _
  have h : (f.value x).num = 0 ↔ f.significand x = 0 := by
    unfold Format.value
    split <;> simp
  rw [h]
  unfold Format.significand Format.isZero
  split <;> simp_all

theorem Format.value_toRat_eq_zero (f : Format) {w : Nat} (x : BitVec w) :
    (f.value x).toRat = 0 ↔ f.isZero x = true := by
  rw [Frac.toRat_eq_zero (f.value_den_pos x), f.value_num_eq_zero]

/-- The numerator of a value is negative exactly for a nonzero pattern with the sign bit set. -/
theorem Format.value_num_neg (f : Format) {w : Nat} (x : BitVec w) :
    (f.value x).num < 0 ↔ f.sign x = true ∧ f.isZero x = false := by
  have hz := f.value_num_eq_zero x
  unfold Format.value at hz ⊢
  cases h : f.sign x <;> simp only [h, Bool.false_eq_true, if_false, if_true] at hz ⊢
  · simp only [false_and, iff_false, not_lt]; positivity
  · rw [Bool.eq_false_iff, ne_eq, ← hz]
    simp only [true_and]
    omega

/-- A finite pattern is neither a NaN nor an infinity. -/
theorem Format.isFinite_iff (f : Format) {w : Nat} (x : BitVec w) :
    f.isFinite x = true ↔ f.isNaN x = false ∧ f.isInf x = false := by
  simp [Format.isFinite]

/-- An infinity is neither a NaN nor a zero. -/
theorem isNaN_isZero_of_isInf {x : Word} (h : isInf x = true) : isNaN x = false ∧ isZero x = false := by
  simp only [isInf, isNaN, isZero, Format.isInf, Format.isNaN, Format.isZero, Bool.and_eq_true, beq_iff_eq] at *
  rw [h.1, h.2]
  decide

/-- A zero is neither a NaN nor an infinity. -/
theorem isNaN_isInf_of_isZero {x : Word} (h : isZero x = true) : isNaN x = false ∧ isInf x = false := by
  simp only [isInf, isNaN, isZero, Format.isInf, Format.isNaN, Format.isZero, Bool.and_eq_true, beq_iff_eq] at *
  rw [h.1, h.2]
  decide

end Sys2Proof.Machine
end

