-- ==== Sys2Proof/Laws/Lanes.lean ====
section
/-! SUPPORT. Lanes: what each operand form of Machine/Operands.lean gives, lane by lane. -/

namespace Sys2Proof.Machine

@[simp] theorem lane_lanes (a b c d : Word) (k : Lane) :
    lane (lanes a b c d) k = match k with | .x => a | .y => b | .z => c | .w => d := by
  apply BitVec.eq_of_getLsbD_eq
  intro i hi
  simp only [lane, BitVec.getLsbD_extractLsb']
  unfold lanes
  repeat rw [BitVec.getLsbD_append]
  cases k <;> simp only [laneNumber] <;> grind

@[simp] theorem lanes_lane (v : VWord) : lanes (lane v .x) (lane v .y) (lane v .z) (lane v .w) = v := by
  apply BitVec.eq_of_getLsbD_eq
  intro i hi
  unfold lanes
  repeat rw [BitVec.getLsbD_append]
  simp only [lane, BitVec.getLsbD_extractLsb', laneNumber]
  grind

/-- Two vectors with the same lanes are the same vector. -/
theorem vector_ext {v u : VWord} (h : ∀ k, lane v k = lane u k) : v = u := by
  rw [← lanes_lane v, ← lanes_lane u, h, h, h, h]

theorem lane_setLane (v : VWord) (k j : Lane) (x : Word) :
    lane (setLane v k x) j = if k = j then x else lane v j := by
  cases k <;> cases j <;> simp [setLane]

@[simp] theorem lane_mapLanes (f : Word → Word) (a : VWord) (k : Lane) : lane (mapLanes f a) k = f (lane a k) := by
  cases k <;> simp [mapLanes]

@[simp] theorem lane_mapLanes₂ (f : Word → Word → Word) (a b : VWord) (k : Lane) :
    lane (mapLanes₂ f a b) k = f (lane a k) (lane b k) := by
  cases k <;> simp [mapLanes₂]

end Sys2Proof.Machine
end

