-- ==== Sys2Proof/Laws/Memory.lean ====
section
/-! SUPPORT. Byte memory: a read after a write, and every operation keeps the canonical form. -/

namespace Sys2Proof.Machine

theorem Memory.read_filter (m : Memory) (a b : Nat) :
    Memory.read (m.filter (fun c => c.1 != a)) b = if b = a then Memory.unlisted else m.read b := by
  induction m with
  | nil => simp [Memory.read]
  | cons c rest ih =>
    rcases c with ⟨d, y⟩
    by_cases hd : d = a
    · subst hd
      simp only [List.filter, bne_self_eq_false, Memory.read, ih]
      split <;> grind
    · simp only [List.filter, bne_iff_ne.mpr hd, Memory.read, ih]
      grind

theorem Memory.read_insert (m : Memory) (a b : Nat) (x : Byte) (h : ∀ c ∈ m, c.1 ≠ a) :
    (m.insert a x).read b = if b = a then x else m.read b := by
  induction m with
  | nil => simp [Memory.insert, Memory.read]; grind
  | cons c rest ih =>
    rcases c with ⟨d, y⟩
    have hd : d ≠ a := h (d, y) (by simp)
    simp only [Memory.insert]
    split
    · simp [Memory.read]; grind
    · simp only [Memory.read, ih (fun c hc => h c (by simp [hc]))]
      grind

/-- A read after a write gives what was written there, and elsewhere what was there. -/
theorem Memory.read_write (m : Memory) (a b : Nat) (x : Byte) :
    (m.write a x).read b = if b = a then x else m.read b := by
  unfold Memory.write
  split
  · rw [Memory.read_filter]; grind
  · rw [Memory.read_insert _ _ _ _ (by simp), Memory.read_filter]; grind

@[simp] theorem Memory.read_write_same (m : Memory) (a : Nat) (x : Byte) : (m.write a x).read a = x := by
  simp [Memory.read_write]

theorem Memory.read_write_other (m : Memory) {a b : Nat} (x : Byte) (h : b ≠ a) : (m.write a x).read b = m.read b := by
  simp [Memory.read_write, h]

theorem Memory.mem_insert (m : Memory) (a : Nat) (x : Byte) (c : Host.Cell) :
    c ∈ m.insert a x ↔ c = (a, x) ∨ c ∈ m := by
  induction m with
  | nil => simp [Memory.insert]
  | cons d rest ih =>
    rcases d with ⟨b, y⟩
    simp only [Memory.insert]
    split
    · simp
    · simp [ih]; grind

theorem Memory.insert_sorted (m : Memory) (a : Nat) (x : Byte) (hm : m.Pairwise (fun c d => c.1 < d.1))
    (h : ∀ c ∈ m, c.1 ≠ a) : (m.insert a x).Pairwise (fun c d => c.1 < d.1) := by
  induction m with
  | nil => simp [Memory.insert]
  | cons d rest ih =>
    rcases d with ⟨b, y⟩
    have hb : b ≠ a := h (b, y) (by simp)
    rw [List.pairwise_cons] at hm
    simp only [Memory.insert]
    split
    · rename_i hab
      simp only [List.pairwise_cons, List.mem_cons]
      refine ⟨?_, hm.1, hm.2⟩
      rintro c (rfl | hc)
      · exact hab
      · have := hm.1 c hc
        simp only at this ⊢
        omega
    · simp only [List.pairwise_cons, Memory.mem_insert]
      refine ⟨?_, ih hm.2 (fun c hc => h c (by simp [hc]))⟩
      rintro c (rfl | hc)
      · simp only
        omega
      · exact hm.1 c hc

/-- A write keeps the canonical form. -/
theorem Memory.write_wf {m : Memory} (a : Nat) (x : Byte) (h : m.wf) : (m.write a x).wf := by
  have hf : (m.filter (fun c => c.1 != a)).Pairwise (fun c d => c.1 < d.1) := h.1.filter _
  unfold Memory.write
  split
  · exact ⟨hf, fun c hc => h.2 c (List.mem_filter.mp hc).1⟩
  · rename_i hx
    refine ⟨Memory.insert_sorted _ a x hf (by simp), fun c hc => ?_⟩
    rcases (Memory.mem_insert _ a x c).mp hc with rfl | hc
    · exact hx
    · exact h.2 c (List.mem_filter.mp hc).1

/-- A write inside the memory lists no byte outside it. -/
theorem Memory.write_within {m : Memory} {size : Nat} (a : Nat) (x : Byte) (h : m.within size) (ha : a < size) :
    (m.write a x).within size := by
  intro c hc
  unfold Memory.write at hc
  split at hc
  · exact h c (List.mem_filter.mp hc).1
  · rcases (Memory.mem_insert _ a x c).mp hc with rfl | hc
    · exact ha
    · exact h c (List.mem_filter.mp hc).1

theorem Memory.writeLE_wf {m : Memory} (a v n : Nat) (h : m.wf) : (m.writeLE a v n).wf := by
  induction n generalizing m a v with
  | zero => exact h
  | succ n ih => exact ih (a + 1) (v / 256) (Memory.write_wf a _ h)

theorem Memory.writeLE_within {m : Memory} {size : Nat} (a v n : Nat) (h : m.within size) (ha : a + n ≤ size) :
    (m.writeLE a v n).within size := by
  induction n generalizing m a v with
  | zero => exact h
  | succ n ih => exact ih (a + 1) (v / 256) (Memory.write_within a _ h (by omega)) (by omega)

/-- A wide write leaves every byte outside its range alone. -/
theorem Memory.read_writeLE_outside (m : Memory) (a v n b : Nat) (h : b < a ∨ a + n ≤ b) :
    (m.writeLE a v n).read b = m.read b := by
  induction n generalizing m a v with
  | zero => rfl
  | succ n ih =>
    simp only [Memory.writeLE]
    rw [ih (m.write a _) (a + 1) (v / 256) (by omega), Memory.read_write_other m _ (by omega)]

/-- Byte `k` of a wide write. -/
theorem Memory.read_writeLE_inside (m : Memory) (a v n k : Nat) (h : k < n) :
    (m.writeLE a v n).read (a + k) = BitVec.ofNat 8 (v / 256 ^ k) := by
  induction n generalizing m a v k with
  | zero => omega
  | succ n ih =>
    simp only [Memory.writeLE]
    rcases k with _ | k
    · rw [Memory.read_writeLE_outside _ _ _ _ _ (by omega)]
      simp
    · have := ih (m.write a (BitVec.ofNat 8 v)) (a + 1) (v / 256) k (by omega)
      rw [show a + (k + 1) = a + 1 + k by omega, this, Nat.div_div_eq_div_mul, Nat.pow_succ, Nat.mul_comm 256]

/-- Byte `k` of a wide read. -/
theorem Memory.readLE_byte (m : Memory) (a n k : Nat) (h : k < n) :
    BitVec.ofNat 8 (m.readLE a n / 256 ^ k) = m.read (a + k) := by
  induction n generalizing a k with
  | zero => omega
  | succ n ih =>
    simp only [Memory.readLE]
    rcases k with _ | k
    · apply BitVec.eq_of_toNat_eq
      have := (m.read a).isLt
      simp
      omega
    · have hlt := (m.read a).isLt
      rw [show a + (k + 1) = a + 1 + k by omega, ← ih (a + 1) k (by omega), Nat.pow_succ, Nat.mul_comm (256 ^ k),
        ← Nat.div_div_eq_div_mul]
      congr 2
      omega

theorem Memory.readLE_lt (m : Memory) (a n : Nat) : m.readLE a n < 256 ^ n := by
  induction n generalizing a with
  | zero => simp [Memory.readLE]
  | succ n ih =>
    have h1 := ih (a + 1)
    have h2 := (m.read a).isLt
    simp only [Memory.readLE, Nat.pow_succ]
    omega

theorem Memory.ofCells_fold {size : Nat} (cells : List Host.Cell) {m : Memory} (h : m.wf ∧ m.within size) :
    let r := cells.foldl (fun m c => if c.1 < size then Memory.write m c.1 c.2 else m) m
    Memory.wf r ∧ Memory.within r size := by
  induction cells generalizing m with
  | nil => exact h
  | cons c rest ih =>
    simp only [List.foldl_cons]
    apply ih
    split
    · rename_i hc
      exact ⟨Memory.write_wf _ _ h.1, Memory.write_within _ _ h.2 hc⟩
    · exact h

/-- Whatever bytes a reset leaves, the memory is in canonical form and lists only bytes that exist. -/
theorem Memory.ofCells_wf (size : Nat) (cells : List Host.Cell) :
    (Memory.ofCells size cells).wf ∧ (Memory.ofCells size cells).within size :=
  Memory.ofCells_fold cells ⟨⟨List.Pairwise.nil, by simp⟩, by simp⟩

end Sys2Proof.Machine
end

