-- ==== Sys2Proof/Laws/State.lean ====
section
/-! SUPPORT. One lemma per field per update of the state, true by rfl, so that no proof unfolds a record update. -/

namespace Sys2Proof.Machine

/-! ### State.writeV -/

@[simp] theorem State.writeV_vregs (s : State) (r : VReg) (x : VWord) : (s.writeV r x).vregs = s.vregs.set r.num x := rfl
@[simp] theorem State.writeV_sregs (s : State) (r : VReg) (x : VWord) : (s.writeV r x).sregs = s.sregs := rfl
@[simp] theorem State.writeV_pc (s : State) (r : VReg) (x : VWord) : (s.writeV r x).pc = s.pc := rfl
@[simp] theorem State.writeV_seq (s : State) (r : VReg) (x : VWord) : (s.writeV r x).seq = s.seq := rfl
@[simp] theorem State.writeV_startPc (s : State) (r : VReg) (x : VWord) : (s.writeV r x).startPc = s.startPc := rfl
@[simp] theorem State.writeV_faultCause (s : State) (r : VReg) (x : VWord) : (s.writeV r x).faultCause = s.faultCause := rfl
@[simp] theorem State.writeV_faultPc (s : State) (r : VReg) (x : VWord) : (s.writeV r x).faultPc = s.faultPc := rfl
@[simp] theorem State.writeV_faultInfo (s : State) (r : VReg) (x : VWord) : (s.writeV r x).faultInfo = s.faultInfo := rfl
@[simp] theorem State.writeV_imem (s : State) (r : VReg) (x : VWord) : (s.writeV r x).imem = s.imem := rfl
@[simp] theorem State.writeV_dmem (s : State) (r : VReg) (x : VWord) : (s.writeV r x).dmem = s.dmem := rfl
@[simp] theorem State.writeV_imemSize (s : State) (r : VReg) (x : VWord) : (s.writeV r x).imemSize = s.imemSize := rfl
@[simp] theorem State.writeV_dmemSize (s : State) (r : VReg) (x : VWord) : (s.writeV r x).dmemSize = s.dmemSize := rfl
@[simp] theorem State.writeV_resets (s : State) (r : VReg) (x : VWord) : (s.writeV r x).resets = s.resets := rfl

/-! ### State.writeS -/

@[simp] theorem State.writeS_vregs (s : State) (r : SReg) (x : Word) : (s.writeS r x).vregs = s.vregs := rfl
@[simp] theorem State.writeS_sregs (s : State) (r : SReg) (x : Word) : (s.writeS r x).sregs = s.sregs.set r.num x := rfl
@[simp] theorem State.writeS_pc (s : State) (r : SReg) (x : Word) : (s.writeS r x).pc = s.pc := rfl
@[simp] theorem State.writeS_seq (s : State) (r : SReg) (x : Word) : (s.writeS r x).seq = s.seq := rfl
@[simp] theorem State.writeS_startPc (s : State) (r : SReg) (x : Word) : (s.writeS r x).startPc = s.startPc := rfl
@[simp] theorem State.writeS_faultCause (s : State) (r : SReg) (x : Word) : (s.writeS r x).faultCause = s.faultCause := rfl
@[simp] theorem State.writeS_faultPc (s : State) (r : SReg) (x : Word) : (s.writeS r x).faultPc = s.faultPc := rfl
@[simp] theorem State.writeS_faultInfo (s : State) (r : SReg) (x : Word) : (s.writeS r x).faultInfo = s.faultInfo := rfl
@[simp] theorem State.writeS_imem (s : State) (r : SReg) (x : Word) : (s.writeS r x).imem = s.imem := rfl
@[simp] theorem State.writeS_dmem (s : State) (r : SReg) (x : Word) : (s.writeS r x).dmem = s.dmem := rfl
@[simp] theorem State.writeS_imemSize (s : State) (r : SReg) (x : Word) : (s.writeS r x).imemSize = s.imemSize := rfl
@[simp] theorem State.writeS_dmemSize (s : State) (r : SReg) (x : Word) : (s.writeS r x).dmemSize = s.dmemSize := rfl
@[simp] theorem State.writeS_resets (s : State) (r : SReg) (x : Word) : (s.writeS r x).resets = s.resets := rfl

/-! ### State.advance -/

@[simp] theorem State.advance_vregs (s : State) : (s.advance).vregs = s.vregs := rfl
@[simp] theorem State.advance_sregs (s : State) : (s.advance).sregs = s.sregs := rfl
@[simp] theorem State.advance_pc (s : State) : (s.advance).pc = s.pc + 4#32 := rfl
@[simp] theorem State.advance_seq (s : State) : (s.advance).seq = s.seq := rfl
@[simp] theorem State.advance_startPc (s : State) : (s.advance).startPc = s.startPc := rfl
@[simp] theorem State.advance_faultCause (s : State) : (s.advance).faultCause = s.faultCause := rfl
@[simp] theorem State.advance_faultPc (s : State) : (s.advance).faultPc = s.faultPc := rfl
@[simp] theorem State.advance_faultInfo (s : State) : (s.advance).faultInfo = s.faultInfo := rfl
@[simp] theorem State.advance_imem (s : State) : (s.advance).imem = s.imem := rfl
@[simp] theorem State.advance_dmem (s : State) : (s.advance).dmem = s.dmem := rfl
@[simp] theorem State.advance_imemSize (s : State) : (s.advance).imemSize = s.imemSize := rfl
@[simp] theorem State.advance_dmemSize (s : State) : (s.advance).dmemSize = s.dmemSize := rfl
@[simp] theorem State.advance_resets (s : State) : (s.advance).resets = s.resets := rfl

/-! ### State.retireV -/

@[simp] theorem State.retireV_vregs (s : State) (r : VReg) (x : VWord) : (s.retireV r x).vregs = s.vregs.set r.num x := rfl
@[simp] theorem State.retireV_sregs (s : State) (r : VReg) (x : VWord) : (s.retireV r x).sregs = s.sregs := rfl
@[simp] theorem State.retireV_pc (s : State) (r : VReg) (x : VWord) : (s.retireV r x).pc = s.pc + 4#32 := rfl
@[simp] theorem State.retireV_seq (s : State) (r : VReg) (x : VWord) : (s.retireV r x).seq = s.seq := rfl
@[simp] theorem State.retireV_startPc (s : State) (r : VReg) (x : VWord) : (s.retireV r x).startPc = s.startPc := rfl
@[simp] theorem State.retireV_faultCause (s : State) (r : VReg) (x : VWord) : (s.retireV r x).faultCause = s.faultCause := rfl
@[simp] theorem State.retireV_faultPc (s : State) (r : VReg) (x : VWord) : (s.retireV r x).faultPc = s.faultPc := rfl
@[simp] theorem State.retireV_faultInfo (s : State) (r : VReg) (x : VWord) : (s.retireV r x).faultInfo = s.faultInfo := rfl
@[simp] theorem State.retireV_imem (s : State) (r : VReg) (x : VWord) : (s.retireV r x).imem = s.imem := rfl
@[simp] theorem State.retireV_dmem (s : State) (r : VReg) (x : VWord) : (s.retireV r x).dmem = s.dmem := rfl
@[simp] theorem State.retireV_imemSize (s : State) (r : VReg) (x : VWord) : (s.retireV r x).imemSize = s.imemSize := rfl
@[simp] theorem State.retireV_dmemSize (s : State) (r : VReg) (x : VWord) : (s.retireV r x).dmemSize = s.dmemSize := rfl
@[simp] theorem State.retireV_resets (s : State) (r : VReg) (x : VWord) : (s.retireV r x).resets = s.resets := rfl

/-! ### State.retireS -/

@[simp] theorem State.retireS_vregs (s : State) (r : SReg) (x : Word) : (s.retireS r x).vregs = s.vregs := rfl
@[simp] theorem State.retireS_sregs (s : State) (r : SReg) (x : Word) : (s.retireS r x).sregs = s.sregs.set r.num x := rfl
@[simp] theorem State.retireS_pc (s : State) (r : SReg) (x : Word) : (s.retireS r x).pc = s.pc + 4#32 := rfl
@[simp] theorem State.retireS_seq (s : State) (r : SReg) (x : Word) : (s.retireS r x).seq = s.seq := rfl
@[simp] theorem State.retireS_startPc (s : State) (r : SReg) (x : Word) : (s.retireS r x).startPc = s.startPc := rfl
@[simp] theorem State.retireS_faultCause (s : State) (r : SReg) (x : Word) : (s.retireS r x).faultCause = s.faultCause := rfl
@[simp] theorem State.retireS_faultPc (s : State) (r : SReg) (x : Word) : (s.retireS r x).faultPc = s.faultPc := rfl
@[simp] theorem State.retireS_faultInfo (s : State) (r : SReg) (x : Word) : (s.retireS r x).faultInfo = s.faultInfo := rfl
@[simp] theorem State.retireS_imem (s : State) (r : SReg) (x : Word) : (s.retireS r x).imem = s.imem := rfl
@[simp] theorem State.retireS_dmem (s : State) (r : SReg) (x : Word) : (s.retireS r x).dmem = s.dmem := rfl
@[simp] theorem State.retireS_imemSize (s : State) (r : SReg) (x : Word) : (s.retireS r x).imemSize = s.imemSize := rfl
@[simp] theorem State.retireS_dmemSize (s : State) (r : SReg) (x : Word) : (s.retireS r x).dmemSize = s.dmemSize := rfl
@[simp] theorem State.retireS_resets (s : State) (r : SReg) (x : Word) : (s.retireS r x).resets = s.resets := rfl

/-! ### State.retireStore -/

@[simp] theorem State.retireStore_vregs (s : State) (ea : Word) (x : VWord) : (s.retireStore ea x).vregs = s.vregs := rfl
@[simp] theorem State.retireStore_sregs (s : State) (ea : Word) (x : VWord) : (s.retireStore ea x).sregs = s.sregs := rfl
@[simp] theorem State.retireStore_pc (s : State) (ea : Word) (x : VWord) : (s.retireStore ea x).pc = s.pc + 4#32 := rfl
@[simp] theorem State.retireStore_seq (s : State) (ea : Word) (x : VWord) : (s.retireStore ea x).seq = s.seq := rfl
@[simp] theorem State.retireStore_startPc (s : State) (ea : Word) (x : VWord) : (s.retireStore ea x).startPc = s.startPc := rfl
@[simp] theorem State.retireStore_faultCause (s : State) (ea : Word) (x : VWord) : (s.retireStore ea x).faultCause = s.faultCause := rfl
@[simp] theorem State.retireStore_faultPc (s : State) (ea : Word) (x : VWord) : (s.retireStore ea x).faultPc = s.faultPc := rfl
@[simp] theorem State.retireStore_faultInfo (s : State) (ea : Word) (x : VWord) : (s.retireStore ea x).faultInfo = s.faultInfo := rfl
@[simp] theorem State.retireStore_imem (s : State) (ea : Word) (x : VWord) : (s.retireStore ea x).imem = s.imem := rfl
@[simp] theorem State.retireStore_dmem (s : State) (ea : Word) (x : VWord) : (s.retireStore ea x).dmem = s.dmem.writeVector ea.toNat x := rfl
@[simp] theorem State.retireStore_imemSize (s : State) (ea : Word) (x : VWord) : (s.retireStore ea x).imemSize = s.imemSize := rfl
@[simp] theorem State.retireStore_dmemSize (s : State) (ea : Word) (x : VWord) : (s.retireStore ea x).dmemSize = s.dmemSize := rfl
@[simp] theorem State.retireStore_resets (s : State) (ea : Word) (x : VWord) : (s.retireStore ea x).resets = s.resets := rfl

/-! ### takeFault -/

@[simp] theorem takeFault_vregs (c : Cause) (info : Word) (s : State) : (takeFault c info s).vregs = s.vregs := rfl
@[simp] theorem takeFault_sregs (c : Cause) (info : Word) (s : State) : (takeFault c info s).sregs = s.sregs := rfl
@[simp] theorem takeFault_pc (c : Cause) (info : Word) (s : State) : (takeFault c info s).pc = s.pc := rfl
@[simp] theorem takeFault_seq (c : Cause) (info : Word) (s : State) : (takeFault c info s).seq = .faulted := rfl
@[simp] theorem takeFault_startPc (c : Cause) (info : Word) (s : State) : (takeFault c info s).startPc = s.startPc := rfl
@[simp] theorem takeFault_faultCause (c : Cause) (info : Word) (s : State) : (takeFault c info s).faultCause = c := rfl
@[simp] theorem takeFault_faultPc (c : Cause) (info : Word) (s : State) : (takeFault c info s).faultPc = s.pc := rfl
@[simp] theorem takeFault_faultInfo (c : Cause) (info : Word) (s : State) : (takeFault c info s).faultInfo = info := rfl
@[simp] theorem takeFault_imem (c : Cause) (info : Word) (s : State) : (takeFault c info s).imem = s.imem := rfl
@[simp] theorem takeFault_dmem (c : Cause) (info : Word) (s : State) : (takeFault c info s).dmem = s.dmem := rfl
@[simp] theorem takeFault_imemSize (c : Cause) (info : Word) (s : State) : (takeFault c info s).imemSize = s.imemSize := rfl
@[simp] theorem takeFault_dmemSize (c : Cause) (info : Word) (s : State) : (takeFault c info s).dmemSize = s.dmemSize := rfl
@[simp] theorem takeFault_resets (c : Cause) (info : Word) (s : State) : (takeFault c info s).resets = s.resets := rfl

/-! ### State.halt -/

@[simp] theorem State.halt_vregs (s : State) : (s.halt).vregs = s.vregs := rfl
@[simp] theorem State.halt_sregs (s : State) : (s.halt).sregs = s.sregs := rfl
@[simp] theorem State.halt_pc (s : State) : (s.halt).pc = s.pc + 4#32 := rfl
@[simp] theorem State.halt_seq (s : State) : (s.halt).seq = .halted := rfl
@[simp] theorem State.halt_startPc (s : State) : (s.halt).startPc = s.startPc := rfl
@[simp] theorem State.halt_faultCause (s : State) : (s.halt).faultCause = s.faultCause := rfl
@[simp] theorem State.halt_faultPc (s : State) : (s.halt).faultPc = s.faultPc := rfl
@[simp] theorem State.halt_faultInfo (s : State) : (s.halt).faultInfo = s.faultInfo := rfl
@[simp] theorem State.halt_imem (s : State) : (s.halt).imem = s.imem := rfl
@[simp] theorem State.halt_dmem (s : State) : (s.halt).dmem = s.dmem := rfl
@[simp] theorem State.halt_imemSize (s : State) : (s.halt).imemSize = s.imemSize := rfl
@[simp] theorem State.halt_dmemSize (s : State) : (s.halt).dmemSize = s.dmemSize := rfl
@[simp] theorem State.halt_resets (s : State) : (s.halt).resets = s.resets := rfl

/-! ### State.start -/

@[simp] theorem State.start_vregs (s : State) : (s.start).vregs = s.vregs := rfl
@[simp] theorem State.start_sregs (s : State) : (s.start).sregs = s.sregs := rfl
@[simp] theorem State.start_pc (s : State) : (s.start).pc = s.startPc := rfl
@[simp] theorem State.start_seq (s : State) : (s.start).seq = .running := rfl
@[simp] theorem State.start_startPc (s : State) : (s.start).startPc = s.startPc := rfl
@[simp] theorem State.start_faultCause (s : State) : (s.start).faultCause = .none := rfl
@[simp] theorem State.start_faultPc (s : State) : (s.start).faultPc = 0 := rfl
@[simp] theorem State.start_faultInfo (s : State) : (s.start).faultInfo = 0 := rfl
@[simp] theorem State.start_imem (s : State) : (s.start).imem = s.imem := rfl
@[simp] theorem State.start_dmem (s : State) : (s.start).dmem = s.dmem := rfl
@[simp] theorem State.start_imemSize (s : State) : (s.start).imemSize = s.imemSize := rfl
@[simp] theorem State.start_dmemSize (s : State) : (s.start).dmemSize = s.dmemSize := rfl
@[simp] theorem State.start_resets (s : State) : (s.start).resets = s.resets := rfl

/-! ### State.setStartPc -/

@[simp] theorem State.setStartPc_vregs (s : State) (x : Word) : (s.setStartPc x).vregs = s.vregs := rfl
@[simp] theorem State.setStartPc_sregs (s : State) (x : Word) : (s.setStartPc x).sregs = s.sregs := rfl
@[simp] theorem State.setStartPc_pc (s : State) (x : Word) : (s.setStartPc x).pc = s.pc := rfl
@[simp] theorem State.setStartPc_seq (s : State) (x : Word) : (s.setStartPc x).seq = s.seq := rfl
@[simp] theorem State.setStartPc_startPc (s : State) (x : Word) : (s.setStartPc x).startPc = x &&& 0xFFFFFFFC#32 := rfl
@[simp] theorem State.setStartPc_faultCause (s : State) (x : Word) : (s.setStartPc x).faultCause = s.faultCause := rfl
@[simp] theorem State.setStartPc_faultPc (s : State) (x : Word) : (s.setStartPc x).faultPc = s.faultPc := rfl
@[simp] theorem State.setStartPc_faultInfo (s : State) (x : Word) : (s.setStartPc x).faultInfo = s.faultInfo := rfl
@[simp] theorem State.setStartPc_imem (s : State) (x : Word) : (s.setStartPc x).imem = s.imem := rfl
@[simp] theorem State.setStartPc_dmem (s : State) (x : Word) : (s.setStartPc x).dmem = s.dmem := rfl
@[simp] theorem State.setStartPc_imemSize (s : State) (x : Word) : (s.setStartPc x).imemSize = s.imemSize := rfl
@[simp] theorem State.setStartPc_dmemSize (s : State) (x : Word) : (s.setStartPc x).dmemSize = s.dmemSize := rfl
@[simp] theorem State.setStartPc_resets (s : State) (x : Word) : (s.setStartPc x).resets = s.resets := rfl

/-! ### Registers read after an update -/

@[simp] theorem State.readV_writeV_self (s : State) (r : VReg) (x : VWord) : (s.writeV r x).readV r = x := by
  simp [State.readV]

theorem State.readV_writeV_ne (s : State) {r q : VReg} (x : VWord) (h : q ≠ r) : (s.writeV r x).readV q = s.readV q := by
  have hn : (r.num : Nat) ≠ q.num := fun e => h (by cases r; cases q; simp_all [Fin.ext_iff])
  simp [State.readV, Vector.getElem_set_ne, hn]

@[simp] theorem State.readS_writeS_self (s : State) (r : SReg) (x : Word) : (s.writeS r x).readS r = x := by
  simp [State.readS]

theorem State.readS_writeS_ne (s : State) {r q : SReg} (x : Word) (h : q ≠ r) : (s.writeS r x).readS q = s.readS q := by
  have hn : (r.num : Nat) ≠ q.num := fun e => h (by cases r; cases q; simp_all [Fin.ext_iff])
  simp [State.readS, Vector.getElem_set_ne, hn]

@[simp] theorem State.writeV_readS (s : State) (r : VReg) (x : VWord) (q : SReg) : (s.writeV r x).readS q = s.readS q := rfl
@[simp] theorem State.writeS_readV (s : State) (r : SReg) (x : Word) (q : VReg) : (s.writeS r x).readV q = s.readV q := rfl
@[simp] theorem State.advance_readV (s : State) (q : VReg) : (s.advance).readV q = s.readV q := rfl
@[simp] theorem State.advance_readS (s : State) (q : SReg) : (s.advance).readS q = s.readS q := rfl
@[simp] theorem State.retireV_readS (s : State) (r : VReg) (x : VWord) (q : SReg) : (s.retireV r x).readS q = s.readS q := rfl
@[simp] theorem State.retireS_readV (s : State) (r : SReg) (x : Word) (q : VReg) : (s.retireS r x).readV q = s.readV q := rfl
@[simp] theorem State.retireStore_readV (s : State) (ea : Word) (x : VWord) (q : VReg) : (s.retireStore ea x).readV q = s.readV q := rfl
@[simp] theorem State.retireStore_readS (s : State) (ea : Word) (x : VWord) (q : SReg) : (s.retireStore ea x).readS q = s.readS q := rfl
@[simp] theorem takeFault_readV (c : Cause) (info : Word) (s : State) (q : VReg) : (takeFault c info s).readV q = s.readV q := rfl
@[simp] theorem takeFault_readS (c : Cause) (info : Word) (s : State) (q : SReg) : (takeFault c info s).readS q = s.readS q := rfl
@[simp] theorem State.halt_readV (s : State) (q : VReg) : (s.halt).readV q = s.readV q := rfl
@[simp] theorem State.halt_readS (s : State) (q : SReg) : (s.halt).readS q = s.readS q := rfl
@[simp] theorem State.start_readV (s : State) (q : VReg) : (s.start).readV q = s.readV q := rfl
@[simp] theorem State.start_readS (s : State) (q : SReg) : (s.start).readS q = s.readS q := rfl
@[simp] theorem State.setStartPc_readV (s : State) (x : Word) (q : VReg) : (s.setStartPc x).readV q = s.readV q := rfl
@[simp] theorem State.setStartPc_readS (s : State) (x : Word) (q : SReg) : (s.setStartPc x).readS q = s.readS q := rfl

@[simp] theorem State.retireV_readV_self (s : State) (r : VReg) (x : VWord) : (s.retireV r x).readV r = x := by
  simp [State.retireV]

theorem State.retireV_readV_ne (s : State) {r q : VReg} (x : VWord) (h : q ≠ r) : (s.retireV r x).readV q = s.readV q := by
  simp [State.retireV, State.readV_writeV_ne s x h]

@[simp] theorem State.retireS_readS_self (s : State) (r : SReg) (x : Word) : (s.retireS r x).readS r = x := by
  simp [State.retireS]

theorem State.retireS_readS_ne (s : State) {r q : SReg} (x : Word) (h : q ≠ r) : (s.retireS r x).readS q = s.readS q := by
  simp [State.retireS, State.readS_writeS_ne s x h]

end Sys2Proof.Machine
end

