-- ==== Sys2Proof/Laws/Ops.lean ====
section
/-! SUPPORT. What each shared operation can do, said once: the vector access, the access check, the fetch, an instruction, a
step, and the host's guards. -/

namespace Sys2Proof.Machine

/-! ### The 16-byte access (R63) -/

/-- Byte `k` of a vector load. -/
theorem Memory.readVector_byte (m : Memory) (a k : Nat) (h : k < 16) :
    (m.readVector a).extractLsb' (8 * k) 8 = m.read (a + k) := by
  rw [← Memory.readLE_byte m a 16 k h, Memory.readVector]
  have hlt : m.readLE a 16 < 2 ^ 128 := lt_of_lt_of_eq (Memory.readLE_lt m a 16) (by norm_num)
  generalize m.readLE a 16 = v at hlt ⊢
  apply BitVec.eq_of_toNat_eq
  have hmod : v % 2 ^ 128 = v := Nat.mod_eq_of_lt hlt
  simp only [BitVec.extractLsb'_toNat, BitVec.toNat_ofNat, hmod, Nat.shiftRight_eq_div_pow, Nat.pow_mul]

/-- Byte `k` of a vector store. -/
theorem Memory.read_writeVector_inside (m : Memory) (a k : Nat) (v : VWord) (h : k < 16) :
    (m.writeVector a v).read (a + k) = v.extractLsb' (8 * k) 8 := by
  rw [Memory.writeVector, Memory.read_writeLE_inside m a _ 16 k h]
  apply BitVec.eq_of_toNat_eq
  simp [BitVec.extractLsb'_toNat, Nat.shiftRight_eq_div_pow, Nat.pow_mul]

/-- A vector store leaves every byte outside its 16 alone. -/
theorem Memory.read_writeVector_outside (m : Memory) (a b : Nat) (v : VWord) (h : b < a ∨ a + 16 ≤ b) :
    (m.writeVector a v).read b = m.read b :=
  Memory.read_writeLE_outside m a _ 16 b h

/-- Two vectors with the same 16 bytes are the same vector. -/
theorem vector_ext_bytes {v u : VWord} (h : ∀ k < 16, v.extractLsb' (8 * k) 8 = u.extractLsb' (8 * k) 8) : v = u := by
  apply BitVec.eq_of_getLsbD_eq
  intro i hi
  have hb := congrArg (fun b => BitVec.getLsbD b (i % 8)) (h (i / 8) (by omega))
  simpa [BitVec.getLsbD_extractLsb', Nat.mod_lt, Nat.div_add_mod] using hb

/-- A vector load of the bytes a vector store wrote gives the vector back. -/
@[simp] theorem Memory.readVector_writeVector (m : Memory) (a : Nat) (v : VWord) :
    (m.writeVector a v).readVector a = v := by
  apply vector_ext_bytes
  intro k hk
  rw [Memory.readVector_byte _ _ _ hk, Memory.read_writeVector_inside _ _ _ _ hk]

/-! ### The access check (R264, R303) -/

theorem State.accessCheck_eq_none (s : State) (ea : Word) :
    s.accessCheck ea = none ↔ ea.extractLsb' 0 4 = 0#4 ∧ ea.toNat + 16 ≤ s.dmemSize := by
  unfold State.accessCheck
  split
  · simp_all
  · split <;> simp_all

theorem State.accessCheck_eq_some (s : State) (ea : Word) (c : Cause) :
    s.accessCheck ea = some c ↔
      (c = .misalignedAccess ∧ ea.extractLsb' 0 4 ≠ 0#4) ∨
      (c = .accessFault ∧ ea.extractLsb' 0 4 = 0#4 ∧ s.dmemSize < ea.toNat + 16) := by
  unfold State.accessCheck
  split
  · simp_all; grind
  · split <;> (simp_all; try grind)

/-! ### The fetch (R301, R302) -/

theorem State.fetch_eq_ok (s : State) (i : Instr) :
    s.fetch = .ok i ↔ s.pc.toNat + 4 ≤ s.imemSize ∧ decode s.fetchWord = .ok i := by
  unfold State.fetch State.fetchFaults
  split
  · simp_all
  · cases decode s.fetchWord <;> simp_all

theorem State.fetch_eq_error (s : State) (c : Cause) (info : Word) :
    s.fetch = .error (c, info) ↔
      (c = .fetchFault ∧ info = s.pc ∧ s.imemSize < s.pc.toNat + 4) ∨
      (c = .illegalInstruction ∧ info = s.fetchWord ∧ s.pc.toNat + 4 ≤ s.imemSize ∧
        ∃ e, decode s.fetchWord = .error e) := by
  unfold State.fetch State.fetchFaults
  split
  · simp_all; grind
  · cases decode s.fetchWord <;> (simp_all; try grind)

/-! ### An instruction and a step -/

/-- Everything an instruction can do: write one register, store 16 bytes, take an access fault, advance, or halt. -/
theorem exec_cases {i : Instr} {s t : State} (h : exec i s = .next t) :
    (∃ vd x, t = s.retireV vd x) ∨ (∃ sd x, t = s.retireS sd x) ∨
    (∃ vt sb off, i = .vst vt sb off ∧ s.accessCheck (s.address sb off) = none ∧
      t = s.retireStore (s.address sb off) (s.readV vt)) ∨
    (∃ sb off c, s.accessCheck (s.address sb off) = some c ∧ t = takeFault c (s.address sb off) s) ∨
    t = s.advance ∨ (i = .halt ∧ t = s.halt) := by
  cases i
  case vld vt sb off =>
    simp only [exec, execVld] at h
    split at h <;> cases h
    · exact .inr (.inr (.inr (.inl ⟨sb, off, _, ‹_›, rfl⟩)))
    · exact .inl ⟨_, _, rfl⟩
  case vst vt sb off =>
    simp only [exec, execVst] at h
    split at h <;> cases h
    · exact .inr (.inr (.inr (.inl ⟨sb, off, _, ‹_›, rfl⟩)))
    · exact .inr (.inr (.inl ⟨vt, sb, off, rfl, ‹_›, rfl⟩))
  case vpref => cases h; exact .inr (.inr (.inr (.inr (.inl rfl))))
  case nop => cases h; exact .inr (.inr (.inr (.inr (.inl rfl))))
  case halt => cases h; exact .inr (.inr (.inr (.inr (.inr ⟨rfl, rfl⟩))))
  case lil => cases h; exact .inr (.inl ⟨_, _, rfl⟩)
  case lih => cases h; exact .inr (.inl ⟨_, _, rfl⟩)
  case vext => cases h; exact .inr (.inl ⟨_, _, rfl⟩)
  all_goals cases h; exact .inl ⟨_, _, rfl⟩

/-- Everything a step can do. -/
theorem step_cases {s t : State} (h : step s = .next t) :
    s.seq = .running ∧
    ((∃ i, s.fetch = .ok i ∧ exec i s = .next t) ∨
      (∃ c info, s.fetch = .error (c, info) ∧ t = takeFault c info s)) := by
  unfold step at h
  split at h
  · rename_i hr
    refine ⟨hr, ?_⟩
    split at h
    · exact .inl ⟨_, ‹_›, h⟩
    · cases h; exact .inr ⟨_, _, ‹_›, rfl⟩
  all_goals cases h

/-! ### The host's guards (R348, R352) -/

theorem State.whileStopped_eq_next {α : Type} (s : State) (o : Host.Outcome α Fault Refusal) (x : α) :
    s.whileStopped o = .next x ↔ s.seq ≠ .running ∧ o = .next x := by
  unfold State.whileStopped
  split <;> simp_all

theorem existing_eq_next {α : Type} (a size : Nat) (o : Host.Outcome α Fault Refusal) (x : α) :
    existing a size o = .next x ↔ a < size ∧ o = .next x := by
  unfold existing
  split <;> simp_all

end Sys2Proof.Machine
end

