-- ==== Sys2Proof/Laws/PerInstr.lean ====
section
/-! SUPPORT. Statements about every instruction as syntax, proved constructor by constructor. Family `EncodesItsRow` (spec/30_encoding.md
R102): the word the encoder writes for an instruction matches, under the mask of the opcode table, the row that bears the
instruction's mnemonic. -/

namespace Sys2Proof

/-- A word given by its columns matches a row when each column does. -/
theorem OpcodeRow.accepts_toWord (r : OpcodeRow) (f m p : Fields) (hm : r.mask = m.toWord) (hp : r.pattern = p.toWord) :
    r.accepts f.toWord =
      (Fields.mk (f.op &&& m.op) (f.n5 &&& m.n5) (f.n4 &&& m.n4) (f.n3 &&& m.n3) (f.n2 &&& m.n2) (f.n1 &&& m.n1)
        (f.n0 &&& m.n0) == p) := by
  rw [OpcodeRow.accepts, hm, hp, Fields.toWord_and, Bool.eq_iff_iff]
  simp only [beq_iff_eq]
  constructor
  · intro h
    rw [← Fields.ofWord_toWord p, ← h, Fields.ofWord_toWord]
  · rintro rfl
    rfl

namespace Laws.EncodesItsRow

/-- R102, from the encoder's side, for an instruction whose immediates fit. -/
def Statement (i : Instr) : Prop :=
  i.wellFormed = true → ∃ row ∈ opcodeTable, row.mnemonic = i.mnemonic ∧ row.accepts (encode i) = true

/-- One row, checked column by column. -/
theorem of_row {i : Instr} {f : Fields} (row : OpcodeRow) (m p : Fields) (hi : encode i = f.toWord)
    (hmem : opcodeTable.contains row = true) (hn : row.mnemonic = i.mnemonic) (hm : row.mask = m.toWord)
    (hp : row.pattern = p.toWord)
    (h : i.wellFormed = true → Fields.mk (f.op &&& m.op) (f.n5 &&& m.n5) (f.n4 &&& m.n4) (f.n3 &&& m.n3) (f.n2 &&& m.n2) (f.n1 &&& m.n1)
      (f.n0 &&& m.n0) = p) : Statement i :=
  fun hw => ⟨row, by simpa using hmem, hn, by rw [hi, OpcodeRow.accepts_toWord row f m p hm hp]; simpa using h hw⟩

theorem nop : Statement (.nop) :=
  of_row ⟨"NOP", 0x01000000, 0xFFFFFFFF⟩ ⟨0xFF, 15, 15, 15, 15, 15, 15⟩ ⟨0x01, 0, 0, 0, 0, 0, 0⟩ rfl (by decide) rfl (by decide) (by decide)
    (fun _ => rfl)

theorem halt : Statement (.halt) :=
  of_row ⟨"HALT", 0x02000000, 0xFFFFFFFF⟩ ⟨0xFF, 15, 15, 15, 15, 15, 15⟩ ⟨0x02, 0, 0, 0, 0, 0, 0⟩ rfl (by decide) rfl (by decide) (by decide)
    (fun _ => rfl)

theorem lil (sd : SReg) (imm16 : BitVec 16) : Statement (.lil sd imm16) :=
  of_row ⟨"LIL", 0x04000000, 0xFF0F0000⟩ ⟨0xFF, 0, 15, 0, 0, 0, 0⟩ ⟨0x04, 0, 0, 0, 0, 0, 0⟩ rfl (by decide) rfl (by decide) (by decide)
    (by simp)

theorem lih (sd : SReg) (imm16 : BitVec 16) : Statement (.lih sd imm16) :=
  of_row ⟨"LIH", 0x05000000, 0xFF0F0000⟩ ⟨0xFF, 0, 15, 0, 0, 0, 0⟩ ⟨0x05, 0, 0, 0, 0, 0, 0⟩ rfl (by decide) rfl (by decide) (by decide)
    (by simp)

theorem vmake (vd : VReg) (sx : SReg) (sy : SReg) (sz : SReg) (sw : SReg) : Statement (.vmake vd sx sy sz sw) :=
  of_row ⟨"VMAKE", 0x10000000, 0xFF00000F⟩ ⟨0xFF, 0, 0, 0, 0, 0, 15⟩ ⟨0x10, 0, 0, 0, 0, 0, 0⟩ rfl (by decide) rfl (by decide) (by decide)
    (by simp)

theorem vext (sd : SReg) (va : VReg) (lane : Lane) : Statement (.vext sd va lane) :=
  of_row ⟨"VEXT", 0x11000000, 0xFF00FFFC⟩ ⟨0xFF, 0, 0, 15, 15, 15, 12⟩ ⟨0x11, 0, 0, 0, 0, 0, 0⟩ rfl (by decide) rfl (by decide) (by decide)
    (by cases lane <;> simp [Lane.field])

theorem vins (vd : VReg) (sa : SReg) (lane : Lane) : Statement (.vins vd sa lane) :=
  of_row ⟨"VINS", 0x12000000, 0xFF00FFFC⟩ ⟨0xFF, 0, 0, 15, 15, 15, 12⟩ ⟨0x12, 0, 0, 0, 0, 0, 0⟩ rfl (by decide) rfl (by decide) (by decide)
    (by cases lane <;> simp [Lane.field])

theorem vand (vd : VReg) (va : VReg) (vb : VReg) : Statement (.vand vd va vb) :=
  of_row ⟨"VAND", 0x20000000, 0xFF000FFF⟩ ⟨0xFF, 0, 0, 0, 15, 15, 15⟩ ⟨0x20, 0, 0, 0, 0, 0, 0⟩ rfl (by decide) rfl (by decide) (by decide)
    (by simp)

theorem vor (vd : VReg) (va : VReg) (vb : VReg) : Statement (.vor vd va vb) :=
  of_row ⟨"VOR", 0x21000000, 0xFF000FFF⟩ ⟨0xFF, 0, 0, 0, 15, 15, 15⟩ ⟨0x21, 0, 0, 0, 0, 0, 0⟩ rfl (by decide) rfl (by decide) (by decide)
    (by simp)

theorem vxor (vd : VReg) (va : VReg) (vb : VReg) : Statement (.vxor vd va vb) :=
  of_row ⟨"VXOR", 0x22000000, 0xFF000FFF⟩ ⟨0xFF, 0, 0, 0, 15, 15, 15⟩ ⟨0x22, 0, 0, 0, 0, 0, 0⟩ rfl (by decide) rfl (by decide) (by decide)
    (by simp)

theorem vandn (vd : VReg) (va : VReg) (vb : VReg) : Statement (.vandn vd va vb) :=
  of_row ⟨"VANDN", 0x23000000, 0xFF000FFF⟩ ⟨0xFF, 0, 0, 0, 15, 15, 15⟩ ⟨0x23, 0, 0, 0, 0, 0, 0⟩ rfl (by decide) rfl (by decide) (by decide)
    (by simp)

theorem vadd (vd : VReg) (va : VReg) (vb : VReg) : Statement (.vadd vd va vb) :=
  of_row ⟨"VADD", 0x30000000, 0xFF000FFF⟩ ⟨0xFF, 0, 0, 0, 15, 15, 15⟩ ⟨0x30, 0, 0, 0, 0, 0, 0⟩ rfl (by decide) rfl (by decide) (by decide)
    (by simp)

theorem vsub (vd : VReg) (va : VReg) (vb : VReg) : Statement (.vsub vd va vb) :=
  of_row ⟨"VSUB", 0x31000000, 0xFF000FFF⟩ ⟨0xFF, 0, 0, 0, 15, 15, 15⟩ ⟨0x31, 0, 0, 0, 0, 0, 0⟩ rfl (by decide) rfl (by decide) (by decide)
    (by simp)

theorem vmul (vd : VReg) (va : VReg) (vb : VReg) : Statement (.vmul vd va vb) :=
  of_row ⟨"VMUL", 0x32000000, 0xFF000FFF⟩ ⟨0xFF, 0, 0, 0, 15, 15, 15⟩ ⟨0x32, 0, 0, 0, 0, 0, 0⟩ rfl (by decide) rfl (by decide) (by decide)
    (by simp)

theorem vdiv (vd : VReg) (va : VReg) (vb : VReg) : Statement (.vdiv vd va vb) :=
  of_row ⟨"VDIV", 0x33000000, 0xFF000FFF⟩ ⟨0xFF, 0, 0, 0, 15, 15, 15⟩ ⟨0x33, 0, 0, 0, 0, 0, 0⟩ rfl (by decide) rfl (by decide) (by decide)
    (by simp)

theorem vmin (vd : VReg) (va : VReg) (vb : VReg) : Statement (.vmin vd va vb) :=
  of_row ⟨"VMIN", 0x34000000, 0xFF000FFF⟩ ⟨0xFF, 0, 0, 0, 15, 15, 15⟩ ⟨0x34, 0, 0, 0, 0, 0, 0⟩ rfl (by decide) rfl (by decide) (by decide)
    (by simp)

theorem vmax (vd : VReg) (va : VReg) (vb : VReg) : Statement (.vmax vd va vb) :=
  of_row ⟨"VMAX", 0x35000000, 0xFF000FFF⟩ ⟨0xFF, 0, 0, 0, 15, 15, 15⟩ ⟨0x35, 0, 0, 0, 0, 0, 0⟩ rfl (by decide) rfl (by decide) (by decide)
    (by simp)

theorem vrcp (vd : VReg) (va : VReg) : Statement (.vrcp vd va) :=
  of_row ⟨"VRCP", 0x38000000, 0xFF00FFFF⟩ ⟨0xFF, 0, 0, 15, 15, 15, 15⟩ ⟨0x38, 0, 0, 0, 0, 0, 0⟩ rfl (by decide) rfl (by decide) (by decide)
    (by simp)

theorem vsqrt (vd : VReg) (va : VReg) : Statement (.vsqrt vd va) :=
  of_row ⟨"VSQRT", 0x39000000, 0xFF00FFFF⟩ ⟨0xFF, 0, 0, 15, 15, 15, 15⟩ ⟨0x39, 0, 0, 0, 0, 0, 0⟩ rfl (by decide) rfl (by decide) (by decide)
    (by simp)

theorem vrsqrt (vd : VReg) (va : VReg) : Statement (.vrsqrt vd va) :=
  of_row ⟨"VRSQRT", 0x3A000000, 0xFF00FFFF⟩ ⟨0xFF, 0, 0, 15, 15, 15, 15⟩ ⟨0x3A, 0, 0, 0, 0, 0, 0⟩ rfl (by decide) rfl (by decide) (by decide)
    (by simp)

theorem vhadd (vd : VReg) (va : VReg) (vb : VReg) : Statement (.vhadd vd va vb) :=
  of_row ⟨"VHADD", 0x40000000, 0xFF000FFF⟩ ⟨0xFF, 0, 0, 0, 15, 15, 15⟩ ⟨0x40, 0, 0, 0, 0, 0, 0⟩ rfl (by decide) rfl (by decide) (by decide)
    (by simp)

theorem vhsub (vd : VReg) (va : VReg) (vb : VReg) : Statement (.vhsub vd va vb) :=
  of_row ⟨"VHSUB", 0x41000000, 0xFF000FFF⟩ ⟨0xFF, 0, 0, 0, 15, 15, 15⟩ ⟨0x41, 0, 0, 0, 0, 0, 0⟩ rfl (by decide) rfl (by decide) (by decide)
    (by simp)

theorem vaddsub (vd : VReg) (va : VReg) (vb : VReg) : Statement (.vaddsub vd va vb) :=
  of_row ⟨"VADDSUB", 0x42000000, 0xFF000FFF⟩ ⟨0xFF, 0, 0, 0, 15, 15, 15⟩ ⟨0x42, 0, 0, 0, 0, 0, 0⟩ rfl (by decide) rfl (by decide) (by decide)
    (by simp)

theorem vdupl (vd : VReg) (va : VReg) : Statement (.vdupl vd va) :=
  of_row ⟨"VDUPL", 0x50000000, 0xFF00FFFF⟩ ⟨0xFF, 0, 0, 15, 15, 15, 15⟩ ⟨0x50, 0, 0, 0, 0, 0, 0⟩ rfl (by decide) rfl (by decide) (by decide)
    (by simp)

theorem vduph (vd : VReg) (va : VReg) : Statement (.vduph vd va) :=
  of_row ⟨"VDUPH", 0x51000000, 0xFF00FFFF⟩ ⟨0xFF, 0, 0, 15, 15, 15, 15⟩ ⟨0x51, 0, 0, 0, 0, 0, 0⟩ rfl (by decide) rfl (by decide) (by decide)
    (by simp)

theorem vilvl (vd : VReg) (va : VReg) (vb : VReg) : Statement (.vilvl vd va vb) :=
  of_row ⟨"VILVL", 0x52000000, 0xFF000FFF⟩ ⟨0xFF, 0, 0, 0, 15, 15, 15⟩ ⟨0x52, 0, 0, 0, 0, 0, 0⟩ rfl (by decide) rfl (by decide) (by decide)
    (by simp)

theorem vilvh (vd : VReg) (va : VReg) (vb : VReg) : Statement (.vilvh vd va vb) :=
  of_row ⟨"VILVH", 0x53000000, 0xFF000FFF⟩ ⟨0xFF, 0, 0, 0, 15, 15, 15⟩ ⟨0x53, 0, 0, 0, 0, 0, 0⟩ rfl (by decide) rfl (by decide) (by decide)
    (by simp)

theorem vshuf (vd : VReg) (va : VReg) (sel : BitVec 8) : Statement (.vshuf vd va sel) :=
  of_row ⟨"VSHUF", 0x58000000, 0xFF00FF00⟩ ⟨0xFF, 0, 0, 15, 15, 0, 0⟩ ⟨0x58, 0, 0, 0, 0, 0, 0⟩ rfl (by decide) rfl (by decide) (by decide)
    (by simp)

theorem vcmpeq (vd : VReg) (va : VReg) (vb : VReg) : Statement (.vcmpeq vd va vb) :=
  of_row ⟨"VCMPEQ", 0x60000000, 0xFF000FFF⟩ ⟨0xFF, 0, 0, 0, 15, 15, 15⟩ ⟨0x60, 0, 0, 0, 0, 0, 0⟩ rfl (by decide) rfl (by decide) (by decide)
    (by simp)

theorem vcmplt (vd : VReg) (va : VReg) (vb : VReg) : Statement (.vcmplt vd va vb) :=
  of_row ⟨"VCMPLT", 0x60000001, 0xFF000FFF⟩ ⟨0xFF, 0, 0, 0, 15, 15, 15⟩ ⟨0x60, 0, 0, 0, 0, 0, 1⟩ rfl (by decide) rfl (by decide) (by decide)
    (by simp)

theorem vcmple (vd : VReg) (va : VReg) (vb : VReg) : Statement (.vcmple vd va vb) :=
  of_row ⟨"VCMPLE", 0x60000002, 0xFF000FFF⟩ ⟨0xFF, 0, 0, 0, 15, 15, 15⟩ ⟨0x60, 0, 0, 0, 0, 0, 2⟩ rfl (by decide) rfl (by decide) (by decide)
    (by simp)

theorem vcmpunord (vd : VReg) (va : VReg) (vb : VReg) : Statement (.vcmpunord vd va vb) :=
  of_row ⟨"VCMPUNORD", 0x60000003, 0xFF000FFF⟩ ⟨0xFF, 0, 0, 0, 15, 15, 15⟩ ⟨0x60, 0, 0, 0, 0, 0, 3⟩ rfl (by decide) rfl (by decide) (by decide)
    (by simp)

theorem vcmpneq (vd : VReg) (va : VReg) (vb : VReg) : Statement (.vcmpneq vd va vb) :=
  of_row ⟨"VCMPNEQ", 0x60000004, 0xFF000FFF⟩ ⟨0xFF, 0, 0, 0, 15, 15, 15⟩ ⟨0x60, 0, 0, 0, 0, 0, 4⟩ rfl (by decide) rfl (by decide) (by decide)
    (by simp)

theorem vcmpnlt (vd : VReg) (va : VReg) (vb : VReg) : Statement (.vcmpnlt vd va vb) :=
  of_row ⟨"VCMPNLT", 0x60000005, 0xFF000FFF⟩ ⟨0xFF, 0, 0, 0, 15, 15, 15⟩ ⟨0x60, 0, 0, 0, 0, 0, 5⟩ rfl (by decide) rfl (by decide) (by decide)
    (by simp)

theorem vcmpnle (vd : VReg) (va : VReg) (vb : VReg) : Statement (.vcmpnle vd va vb) :=
  of_row ⟨"VCMPNLE", 0x60000006, 0xFF000FFF⟩ ⟨0xFF, 0, 0, 0, 15, 15, 15⟩ ⟨0x60, 0, 0, 0, 0, 0, 6⟩ rfl (by decide) rfl (by decide) (by decide)
    (by simp)

theorem vcmpord (vd : VReg) (va : VReg) (vb : VReg) : Statement (.vcmpord vd va vb) :=
  of_row ⟨"VCMPORD", 0x60000007, 0xFF000FFF⟩ ⟨0xFF, 0, 0, 0, 15, 15, 15⟩ ⟨0x60, 0, 0, 0, 0, 0, 7⟩ rfl (by decide) rfl (by decide) (by decide)
    (by simp)

theorem vcastF32 (vd : VReg) (va : VReg) : Statement (.vcastF32 vd va) :=
  of_row ⟨"VCAST.F32", 0x68000000, 0xFF00FFFF⟩ ⟨0xFF, 0, 0, 15, 15, 15, 15⟩ ⟨0x68, 0, 0, 0, 0, 0, 0⟩ rfl (by decide) rfl (by decide) (by decide)
    (by simp)

theorem vcastS64 (vd : VReg) (va : VReg) : Statement (.vcastS64 vd va) :=
  of_row ⟨"VCAST.S64", 0x68000001, 0xFF00FFFF⟩ ⟨0xFF, 0, 0, 15, 15, 15, 15⟩ ⟨0x68, 0, 0, 0, 0, 0, 1⟩ rfl (by decide) rfl (by decide) (by decide)
    (by simp)

theorem vcastU64 (vd : VReg) (va : VReg) : Statement (.vcastU64 vd va) :=
  of_row ⟨"VCAST.U64", 0x68000002, 0xFF00FFFF⟩ ⟨0xFF, 0, 0, 15, 15, 15, 15⟩ ⟨0x68, 0, 0, 0, 0, 0, 2⟩ rfl (by decide) rfl (by decide) (by decide)
    (by simp)

theorem vcastS32 (vd : VReg) (va : VReg) : Statement (.vcastS32 vd va) :=
  of_row ⟨"VCAST.S32", 0x68000003, 0xFF00FFFF⟩ ⟨0xFF, 0, 0, 15, 15, 15, 15⟩ ⟨0x68, 0, 0, 0, 0, 0, 3⟩ rfl (by decide) rfl (by decide) (by decide)
    (by simp)

theorem vcastU32 (vd : VReg) (va : VReg) : Statement (.vcastU32 vd va) :=
  of_row ⟨"VCAST.U32", 0x68000004, 0xFF00FFFF⟩ ⟨0xFF, 0, 0, 15, 15, 15, 15⟩ ⟨0x68, 0, 0, 0, 0, 0, 4⟩ rfl (by decide) rfl (by decide) (by decide)
    (by simp)

theorem vcastS16 (vd : VReg) (va : VReg) : Statement (.vcastS16 vd va) :=
  of_row ⟨"VCAST.S16", 0x68000005, 0xFF00FFFF⟩ ⟨0xFF, 0, 0, 15, 15, 15, 15⟩ ⟨0x68, 0, 0, 0, 0, 0, 5⟩ rfl (by decide) rfl (by decide) (by decide)
    (by simp)

theorem vcastU16 (vd : VReg) (va : VReg) : Statement (.vcastU16 vd va) :=
  of_row ⟨"VCAST.U16", 0x68000006, 0xFF00FFFF⟩ ⟨0xFF, 0, 0, 15, 15, 15, 15⟩ ⟨0x68, 0, 0, 0, 0, 0, 6⟩ rfl (by decide) rfl (by decide) (by decide)
    (by simp)

theorem vcastS8 (vd : VReg) (va : VReg) : Statement (.vcastS8 vd va) :=
  of_row ⟨"VCAST.S8", 0x68000007, 0xFF00FFFF⟩ ⟨0xFF, 0, 0, 15, 15, 15, 15⟩ ⟨0x68, 0, 0, 0, 0, 0, 7⟩ rfl (by decide) rfl (by decide) (by decide)
    (by simp)

theorem vcastU8 (vd : VReg) (va : VReg) : Statement (.vcastU8 vd va) :=
  of_row ⟨"VCAST.U8", 0x68000008, 0xFF00FFFF⟩ ⟨0xFF, 0, 0, 15, 15, 15, 15⟩ ⟨0x68, 0, 0, 0, 0, 0, 8⟩ rfl (by decide) rfl (by decide) (by decide)
    (by simp)

theorem vld (vt : VReg) (sb : SReg) (off : Int) : Statement (.vld vt sb off) :=
  of_row ⟨"VLD", 0x70000000, 0xFF000000⟩ ⟨0xFF, 0, 0, 0, 0, 0, 0⟩ ⟨0x70, 0, 0, 0, 0, 0, 0⟩ rfl (by decide) rfl (by decide) (by decide)
    (by simp)

theorem vst (vt : VReg) (sb : SReg) (off : Int) : Statement (.vst vt sb off) :=
  of_row ⟨"VST", 0x71000000, 0xFF000000⟩ ⟨0xFF, 0, 0, 0, 0, 0, 0⟩ ⟨0x71, 0, 0, 0, 0, 0, 0⟩ rfl (by decide) rfl (by decide) (by decide)
    (by simp)

theorem vpref (hint : Nat) (sb : SReg) (off : Int) : Statement (.vpref hint sb off) :=
  of_row ⟨"VPREF", 0x72000000, 0xFFC00000⟩ ⟨0xFF, 12, 0, 0, 0, 0, 0⟩ ⟨0x72, 0, 0, 0, 0, 0, 0⟩ rfl (by decide) rfl (by decide) (by decide)
    (fun hw => by
      have h4 : hint < 4 := by simp [Instr.wellFormed, fitsHint] at hw; exact hw.1
      interval_cases hint <;> simp)

end Laws.EncodesItsRow

end Sys2Proof
end

