-- ==== Sys2Proof/Machine/AssemblerText.lean ====
section
/-! DEFINITION. Reading a line of assembly (spec/30_encoding.md R104-R106): the mnemonic, the operands of its form and what they
assemble to. What R104 leaves open of the text (spaces, the case of lane and selector names, the spelling of a literal of
`LIF`) is fixed in log entry 16. -/

namespace Sys2Proof.Machine

/-- A piece of a line. -/
abbrev Text : Type := List Char

/-! ### Pieces -/

/-- Cut at every `sep`. -/
def cut (sep : Char) : Text → List Text
  | [] => [[]]
  | c :: rest =>
    if c = sep then [] :: cut sep rest
    else
      match cut sep rest with
      | [] => [[c]]
      | first :: more => (c :: first) :: more

/-- Without the spaces and tabs at its front. -/
def trimFront : Text → Text
  | [] => []
  | c :: rest => if c = ' ' ∨ c = '\t' then trimFront rest else c :: rest

/-- Without the spaces and tabs at both ends. -/
def trim (t : Text) : Text := (trimFront (trimFront t).reverse).reverse

/-- The first word, and the rest. -/
def firstWord : Text → Text × Text
  | [] => ([], [])
  | c :: rest => if c = ' ' ∨ c = '\t' then ([], rest) else (c :: (firstWord rest).1, (firstWord rest).2)

/-- Capital letters: mnemonics and register names are case-insensitive (R104). -/
def capitals (t : Text) : Text := t.map Char.toUpper

/-! ### Numbers -/

/-- The value of a hexadecimal digit. -/
def digitOf (c : Char) : Option Nat :=
  if '0' ≤ c ∧ c ≤ '9' then some (c.toNat - '0'.toNat)
  else if 'a' ≤ c ∧ c ≤ 'f' then some (c.toNat - 'a'.toNat + 10)
  else if 'A' ≤ c ∧ c ≤ 'F' then some (c.toNat - 'A'.toNat + 10)
  else none

/-- The number the digits write in a base, after the digits already read. -/
def digits (base acc : Nat) : Text → Option Nat
  | [] => some acc
  | c :: rest =>
    match digitOf c with
    | some d => if d < base then digits base (base * acc + d) rest else none
    | none => none

/-- A number with at least one digit. -/
def number (base : Nat) (t : Text) : Option Nat := if t = [] then none else digits base 0 t

/-- An immediate: decimal, or hexadecimal after `0x` (R104); not after `0X` (log entry 16). -/
def readNat : Text → Option Nat
  | '0' :: 'x' :: rest => number 16 rest
  | t => number 10 t

/-- A signed immediate. -/
def readInt : Text → Option Int
  | '-' :: rest => (readNat rest).map (fun n => -(n : Int))
  | t => (readNat t).map (fun n => (n : Int))

/-- An immediate that fits `n` bits; one that does not "is an assembly error, never truncated" (R104). -/
def readBits (n : Nat) (t : Text) : Option (BitVec n) :=
  match readNat t with
  | some x => if x < 2 ^ n then some (BitVec.ofNat n x) else none
  | none => none

/-! ### Operands -/

/-- The number of a register: 0 .. 15 in decimal (R31, R35, R99); leading zeros are read (log entry 16). -/
def readRegister (t : Text) : Option (Fin 16) :=
  match number 10 t with
  | some n => if h : n < 16 then some ⟨n, h⟩ else none
  | none => none

/-- `V0` .. `V15`. -/
def readV (t : Text) : Option VReg :=
  match capitals t with
  | 'V' :: rest => (readRegister rest).map VReg.mk
  | _ => none

/-- `S0` .. `S15`. -/
def readS (t : Text) : Option SReg :=
  match capitals t with
  | 'S' :: rest => (readRegister rest).map SReg.mk
  | _ => none

/-- A lane: `X`, `Y`, `Z`, `W` or 0 .. 3 (R104). DESIGN CHOICE (log entry 16): a numeric lane is one decimal digit, not `0x2`
or `02`. -/
def readLane : Text → Option Lane
  | ['X'] | ['0'] => some .x
  | ['Y'] | ['1'] => some .y
  | ['Z'] | ['2'] => some .z
  | ['W'] | ['3'] => some .w
  | _ => none

/-- `off(Sb)`, the displacement 0 where it is left out, which R104 says of `VLD` and `VST`. DESIGN CHOICE (log entry 16): what is
written then is `(Sb)`. -/
def readAddress (t : Text) : Option (SReg × Int) :=
  match cut '(' t with
  | [off, base] =>
    match cut ')' base with
    | [sb, []] => do
      let r ← readS (trim sb)
      if trim off = [] then return (r, 0) else return (r, ← readInt (trim off))
    | _ => none
  | _ => none

/-- A per-lane symbol of R106: `<d>From<src>`. -/
def readPerLane : Text → Option (BitVec 8)
  | [d, 'F', 'r', 'o', 'm', src] => do
    let d ← if d.isUpper then readLane [d] else none
    let src ← if src.isUpper then readLane [src] else none
    return selectorFrom d src
  | _ => none

/-- The symbols of R106 that name a whole selector. -/
def selectorSymbols : List (String × BitVec 8) :=
  [("ExpandX", selectorExpand .x), ("ExpandY", selectorExpand .y), ("ExpandZ", selectorExpand .z),
   ("ExpandW", selectorExpand .w), ("ExpandXY", selectorExpandXY), ("ExpandZW", selectorExpandZW),
   ("ExpandInterleavedXY", selectorExpandInterleavedXY), ("ExpandInterleavedZW", selectorExpandInterleavedZW),
   ("RotateRight", selectorRotateRight), ("RotateLeft", selectorRotateLeft), ("Swap", selectorSwap)]

/-- Per-lane symbols combined by bitwise OR (R106). -/
def readOr : List Text → Option (BitVec 8)
  | [] => some 0
  | t :: rest => do return (← readPerLane (trim t)) ||| (← readOr rest)

/-- A selector: 0 .. 255 or symbols of R106. -/
def readSelector (t : Text) : Option (BitVec 8) :=
  match readBits 8 t with
  | some sel => some sel
  | none =>
    match selectorSymbols.find? (fun p => p.1.toList = t) with
    | some p => some p.2
    | none => readOr (cut '|' t)

/-- The decimal literal of `LIF`: digits, and a fraction after a point. -/
def readLiteral (t : Text) : Option (Bool × Nat × Nat) :=
  let (neg, body) := match t with
    | '-' :: rest => (true, rest)
    | _ => (false, t)
  match cut '.' body with
  | [whole] => (number 10 whole).map (fun n => (neg, n, 1))
  | [whole, fraction] => do
    let n ← number 10 whole
    let f ← number 10 fraction
    return (neg, n * 10 ^ fraction.length + f, 10 ^ fraction.length)
  | _ => none

/-! ### Forms -/

/-- The reader of one form's operands. -/
abbrev FormReader : Type := List Text → Option (List Instr)

/-- Form N. -/
def formN (i : Instr) : FormReader
  | [] => some [i]
  | _ => none

/-- Form SI. -/
def formSI (mk : SReg → BitVec 16 → Instr) : FormReader
  | [d, imm16] => do return [mk (← readS d) (← readBits 16 imm16)]
  | _ => none

/-- Form VS4. -/
def formVS4 : FormReader
  | [d, x, y, z, w] => do return [.vmake (← readV d) (← readS x) (← readS y) (← readS z) (← readS w)]
  | _ => none

/-- Form SVL. -/
def formSVL : FormReader
  | [d, a, l] => do return [.vext (← readS d) (← readV a) (← readLane l)]
  | _ => none

/-- Form VSL. -/
def formVSL : FormReader
  | [d, a, l] => do return [.vins (← readV d) (← readS a) (← readLane l)]
  | _ => none

/-- Forms VVV and VVVP. -/
def formVVV (mk : VReg → VReg → VReg → Instr) : FormReader
  | [d, a, b] => do return [mk (← readV d) (← readV a) (← readV b)]
  | _ => none

/-- Forms VV and VVT. -/
def formVV (mk : VReg → VReg → Instr) : FormReader
  | [d, a] => do return [mk (← readV d) (← readV a)]
  | _ => none

/-- Form VVI. -/
def formVVI : FormReader
  | [d, a, sel] => do return [.vshuf (← readV d) (← readV a) (← readSelector sel)]
  | _ => none

/-- An instruction whose immediates fit their fields (R104). -/
def fitting (i : Instr) : Option (List Instr) := if i.wellFormed then some [i] else none

/-- Form M. -/
def formM (mk : VReg → SReg → Int → Instr) : FormReader
  | [t, address] => do
    let (sb, off) ← readAddress address
    fitting (mk (← readV t) sb off)
  | _ => none

/-- Form P: the hint is 0 where it is left out (R104). DESIGN CHOICE (log entry 16): the displacement may be left out too and is
then 0, as in form M; R104 gives `VPREF` no such default. -/
def formP : FormReader
  | [address] => do
    let (sb, off) ← readAddress address
    fitting (.vpref 0 sb off)
  | [hint, address] => do
    let (sb, off) ← readAddress address
    fitting (.vpref (← readNat hint) sb off)
  | _ => none

/-- A pseudo-instruction whose operands are as R105 asks, expanded. -/
def expanded (p : Pseudo) : Option (List Instr) := if p.usable then some (expand p) else none

/-- `LI`. -/
def formLi : FormReader
  | [d, imm32] => do expanded (.li (← readS d) (← readBits 32 imm32))
  | _ => none

/-- `LIF`. -/
def formLif : FormReader
  | [d, literal] => do
    let (neg, num, den) ← readLiteral literal
    expanded (.lif (← readS d) neg num den)
  | _ => none

/-- `VZERO`. -/
def formVzero : FormReader
  | [d] => do expanded (.vzero (← readV d))
  | _ => none

/-- A pseudo-instruction of two vector registers. -/
def formPseudoVV (mk : VReg → VReg → Pseudo) : FormReader
  | [d, a] => do expanded (mk (← readV d) (← readV a))
  | _ => none

/-- A pseudo-instruction of three vector registers. -/
def formPseudoVVV (mk : VReg → VReg → VReg → Pseudo) : FormReader
  | [d, a, b] => do expanded (mk (← readV d) (← readV a) (← readV b))
  | _ => none

/-- `VSEL`. -/
def formVsel : FormReader
  | [d, m, a, b, t] => do expanded (.vsel (← readV d) (← readV m) (← readV a) (← readV b) (← readV t))
  | _ => none

/-! ### Mnemonics -/

/-- The forms of formats N, SI, VS4, SVL, VSL, VVI, M and P (R104). -/
def formsOther : List (String × FormReader) :=
  [("NOP", formN .nop), ("HALT", formN .halt), ("LIL", formSI .lil), ("LIH", formSI .lih), ("VMAKE", formVS4),
   ("VEXT", formSVL), ("VINS", formVSL), ("VSHUF", formVVI), ("VLD", formM .vld), ("VST", formM .vst), ("VPREF", formP)]

/-- The forms of format VVV. -/
def formsVVV : List (String × FormReader) :=
  [("VAND", formVVV .vand), ("VOR", formVVV .vor), ("VXOR", formVVV .vxor), ("VANDN", formVVV .vandn),
   ("VADD", formVVV .vadd), ("VSUB", formVVV .vsub), ("VMUL", formVVV .vmul), ("VDIV", formVVV .vdiv),
   ("VMIN", formVVV .vmin), ("VMAX", formVVV .vmax), ("VHADD", formVVV .vhadd), ("VHSUB", formVVV .vhsub),
   ("VADDSUB", formVVV .vaddsub), ("VILVL", formVVV .vilvl), ("VILVH", formVVV .vilvh)]

/-- The forms of format VVVP: the mnemonic fixes the predicate. -/
def formsVVVP : List (String × FormReader) :=
  [("VCMPEQ", formVVV .vcmpeq), ("VCMPLT", formVVV .vcmplt), ("VCMPLE", formVVV .vcmple),
   ("VCMPUNORD", formVVV .vcmpunord), ("VCMPNEQ", formVVV .vcmpneq), ("VCMPNLT", formVVV .vcmpnlt),
   ("VCMPNLE", formVVV .vcmpnle), ("VCMPORD", formVVV .vcmpord)]

/-- The forms of formats VV and VVT: the suffix of a cast fixes the tag. -/
def formsVV : List (String × FormReader) :=
  [("VRCP", formVV .vrcp), ("VSQRT", formVV .vsqrt), ("VRSQRT", formVV .vrsqrt), ("VDUPL", formVV .vdupl),
   ("VDUPH", formVV .vduph), ("VCAST.F32", formVV .vcastF32), ("VCAST.S64", formVV .vcastS64),
   ("VCAST.U64", formVV .vcastU64), ("VCAST.S32", formVV .vcastS32), ("VCAST.U32", formVV .vcastU32),
   ("VCAST.S16", formVV .vcastS16), ("VCAST.U16", formVV .vcastU16), ("VCAST.S8", formVV .vcastS8),
   ("VCAST.U8", formVV .vcastU8)]

/-- The pseudo-instructions (R105). -/
def formsPseudo : List (String × FormReader) :=
  [("LI", formLi), ("LIF", formLif), ("VMOV", formPseudoVV .vmov), ("VZERO", formVzero), ("VSWAP", formPseudoVV .vswap),
   ("VBCAST.X", formPseudoVV (.vbcast .x)), ("VBCAST.Y", formPseudoVV (.vbcast .y)),
   ("VBCAST.Z", formPseudoVV (.vbcast .z)), ("VBCAST.W", formPseudoVV (.vbcast .w)),
   ("VCMPGT", formPseudoVVV .vcmpgt), ("VCMPGE", formPseudoVVV .vcmpge), ("VCMPNGT", formPseudoVVV .vcmpngt),
   ("VCMPNGE", formPseudoVVV .vcmpnge), ("VSEL", formVsel)]

/-- Every mnemonic the assembler accepts. -/
def forms : List (String × FormReader) := formsOther ++ formsVVV ++ formsVVVP ++ formsVV ++ formsPseudo

/-- The operands of a line: what stands between the commas (R104). -/
def readOperands (t : Text) : List Text := if trim t = [] then [] else (cut ',' t).map trim

/-- One line of assembly, as the instructions it assembles to; nothing where it is an assembly error (R104, R105). -/
def readLine (line : Text) : Option (List Instr) :=
  let (mnemonic, operands) := firstWord (trim line)
  match forms.find? (fun p => p.1.toList = capitals mnemonic) with
  | some p => p.2 (readOperands operands)
  | none => none

/-- The words of one line of assembly. -/
def assembleLine (line : String) : Option (List Word) := (readLine line.toList).map (fun is => is.map encode)

end Sys2Proof.Machine
end

