-- ==== Sys2Proof/Tests/Slice0.lean ====
section
/-! SUPPORT. Our own tests: the smoke test of `WellFormed`, every constructor's word written out from the formats of R91, one
step of each instruction on a small state with the results of spec/95_test_vectors.md, the faults, the host; and for each
statement with hypotheses a state and operands that meet them. -/

namespace Sys2Proof.Tests

open Sys2Proof Sys2Proof.Machine

/-! ### Helpers -/

/-- The sizes of the programs of spec/95_test_vectors.md part 3, the sequencer RUNNING at 0. -/
def small : State := { State.reset with imemSize := 0x100, dmemSize := 0x200, seq := .running }

/-- `small` with V1 and V2. -/
def operands (a b : VWord) : State := (small.writeV ⟨1⟩ a).writeV ⟨2⟩ b

/-- `small` with V1 = (1.0, 2.0, 3.0, 4.0) and S2 = `base`. -/
def based (base : Word) : State := (small.writeV ⟨1⟩ (lanes 0x3F800000 0x40000000 0x40400000 0x40800000)).writeS ⟨2⟩ base

/-- The next state, if there is one. -/
def nextOf (o : Host.Outcome State Fault Refusal) : Option State :=
  match o with
  | .next t => some t
  | .fault _ => none
  | .refused _ => none

/-- `V[0]` after one instruction. -/
def resultV (i : Instr) (s : State) : Option VWord := (nextOf (exec i s)).map (fun t => t.readV ⟨0⟩)

/-- The four control registers a fault or a stop shows, and pc. -/
def control (s : State) : SeqState × Cause × Word × Word × Word := (s.seq, s.faultCause, s.faultPc, s.faultInfo, s.pc)

/-! ### WellFormed (R104) -/

theorem test_refuses_vld_displacement_above : (Instr.vld ⟨1⟩ ⟨2⟩ 32768).wellFormed = false := by decide
theorem test_refuses_vld_displacement_below : (Instr.vld ⟨1⟩ ⟨2⟩ (-32769)).wellFormed = false := by decide
theorem test_refuses_vst_displacement_above : (Instr.vst ⟨1⟩ ⟨2⟩ 32768).wellFormed = false := by decide
theorem test_refuses_vst_displacement_below : (Instr.vst ⟨1⟩ ⟨2⟩ (-32769)).wellFormed = false := by decide
theorem test_refuses_vpref_displacement : (Instr.vpref 0 ⟨2⟩ 32768).wellFormed = false := by decide
theorem test_refuses_vpref_hint : (Instr.vpref 4 ⟨2⟩ 0).wellFormed = false := by decide
theorem test_accepts_bounds :
    (Instr.vld ⟨1⟩ ⟨2⟩ 32767).wellFormed = true ∧ (Instr.vst ⟨1⟩ ⟨2⟩ (-32768)).wellFormed = true ∧
    (Instr.vpref 3 ⟨2⟩ (-32768)).wellFormed = true := by decide
theorem test_assembler_refuses : assemble (.vpref 4 ⟨2⟩ 0) = none := by decide

/-! ### Decoding: a word of every constructor, written from the columns of R91 and the opcodes of R100 -/

/-- Each word decodes to its instruction and is the instruction's encoding. -/
abbrev Words (l : List (Word × Instr)) : Prop := ∀ p ∈ l, decode p.1 = .ok p.2 ∧ encode p.2 = p.1

theorem test_words_scalar : Words
    [(0x01000000, .nop), (0x02000000, .halt), (0x04F0FFFF, .lil ⟨15⟩ 0xFFFF), (0x0510ABCD, .lih ⟨1⟩ 0xABCD)] := by decide

theorem test_words_construct : Words
    [(0x1096AE10, .vmake ⟨9⟩ ⟨6⟩ ⟨10⟩ ⟨14⟩ ⟨1⟩), (0x117C0001, .vext ⟨7⟩ ⟨12⟩ .y), (0x12C70000, .vins ⟨12⟩ ⟨7⟩ .x),
     (0x11F10002, .vext ⟨15⟩ ⟨1⟩ .z), (0x121F0003, .vins ⟨1⟩ ⟨15⟩ .w)] := by decide

theorem test_words_bitwise : Words
    [(0x201F8000, .vand ⟨1⟩ ⟨15⟩ ⟨8⟩), (0x212E9000, .vor ⟨2⟩ ⟨14⟩ ⟨9⟩), (0x223DA000, .vxor ⟨3⟩ ⟨13⟩ ⟨10⟩),
     (0x234CB000, .vandn ⟨4⟩ ⟨12⟩ ⟨11⟩)] := by decide

theorem test_words_arithmetic : Words
    [(0x30123000, .vadd ⟨1⟩ ⟨2⟩ ⟨3⟩), (0x31456000, .vsub ⟨4⟩ ⟨5⟩ ⟨6⟩), (0x32789000, .vmul ⟨7⟩ ⟨8⟩ ⟨9⟩),
     (0x33ABC000, .vdiv ⟨10⟩ ⟨11⟩ ⟨12⟩), (0x34DEF000, .vmin ⟨13⟩ ⟨14⟩ ⟨15⟩), (0x35FED000, .vmax ⟨15⟩ ⟨14⟩ ⟨13⟩),
     (0x38120000, .vrcp ⟨1⟩ ⟨2⟩), (0x39340000, .vsqrt ⟨3⟩ ⟨4⟩), (0x3A560000, .vrsqrt ⟨5⟩ ⟨6⟩)] := by decide

theorem test_words_horizontal : Words
    [(0x40312000, .vhadd ⟨3⟩ ⟨1⟩ ⟨2⟩), (0x41987000, .vhsub ⟨9⟩ ⟨8⟩ ⟨7⟩), (0x42F0E000, .vaddsub ⟨15⟩ ⟨0⟩ ⟨14⟩)] := by decide

theorem test_words_permute : Words
    [(0x50D70000, .vdupl ⟨13⟩ ⟨7⟩), (0x517D0000, .vduph ⟨7⟩ ⟨13⟩), (0x52012000, .vilvl ⟨0⟩ ⟨1⟩ ⟨2⟩),
     (0x53F12000, .vilvh ⟨15⟩ ⟨1⟩ ⟨2⟩), (0x5845001B, .vshuf ⟨4⟩ ⟨5⟩ 0x1B)] := by decide

theorem test_words_compare : Words
    [(0x60678000, .vcmpeq ⟨6⟩ ⟨7⟩ ⟨8⟩), (0x60678001, .vcmplt ⟨6⟩ ⟨7⟩ ⟨8⟩), (0x60678002, .vcmple ⟨6⟩ ⟨7⟩ ⟨8⟩),
     (0x60678003, .vcmpunord ⟨6⟩ ⟨7⟩ ⟨8⟩), (0x60678004, .vcmpneq ⟨6⟩ ⟨7⟩ ⟨8⟩), (0x60678005, .vcmpnlt ⟨6⟩ ⟨7⟩ ⟨8⟩),
     (0x60678006, .vcmpnle ⟨6⟩ ⟨7⟩ ⟨8⟩), (0x60678007, .vcmpord ⟨6⟩ ⟨7⟩ ⟨8⟩)] := by decide

theorem test_words_cast : Words
    [(0x68210000, .vcastF32 ⟨2⟩ ⟨1⟩), (0x68210001, .vcastS64 ⟨2⟩ ⟨1⟩), (0x68210002, .vcastU64 ⟨2⟩ ⟨1⟩),
     (0x68210003, .vcastS32 ⟨2⟩ ⟨1⟩), (0x68210004, .vcastU32 ⟨2⟩ ⟨1⟩), (0x68210005, .vcastS16 ⟨2⟩ ⟨1⟩),
     (0x68210006, .vcastU16 ⟨2⟩ ⟨1⟩), (0x68210007, .vcastS8 ⟨2⟩ ⟨1⟩), (0x68210008, .vcastU8 ⟨2⟩ ⟨1⟩)] := by decide

theorem test_words_memory : Words
    [(0x70F2FFF0, .vld ⟨15⟩ ⟨2⟩ (-16)), (0x70127FFF, .vld ⟨1⟩ ⟨2⟩ 32767), (0x711F8000, .vst ⟨1⟩ ⟨15⟩ (-32768)),
     (0x72320003, .vpref 3 ⟨2⟩ 3), (0x7214FFFF, .vpref 1 ⟨4⟩ (-1))] := by decide

/-- Why a word is no instruction. -/
def refusal (w : Word) : Option DecodeError :=
  match decode w with
  | .ok _ => none
  | .error e => some e

/-- The illegal words of spec/95_test_vectors.md part 2.1, by reason. -/
theorem test_unassigned_opcodes :
    [0x00000000, 0x24000000, 0xFF000000].map refusal = List.replicate 3 (some .unassignedOpcode) := by decide
theorem test_must_be_zero_bits :
    [0x01000001, 0x30123001, 0x60678008, 0x11320006, 0x72D20000].map refusal = List.replicate 5 (some .mustBeZero) := by decide
theorem test_reserved_tags : [0x68990009, 0x6899000F].map refusal = List.replicate 2 (some .reservedTag) := by decide

/-- Must-be-zero bits of the other formats. -/
theorem test_must_be_zero_other_formats :
    [0x04110000, 0x10012341, 0x12230100, 0x38011000, 0x58010100, 0x60012010, 0x68011000, 0x72400000].map refusal
      = List.replicate 8 (some .mustBeZero) := by decide

theorem test_truncated_bytes : decodeBytes [0x00, 0x30, 0x12] = .error .truncated := by decide

/-- R90: 48 rows. -/
theorem test_table_has_48_rows : opcodeTable.length = 48 := by decide

theorem test_decodeTableWord :
    decodeTableWord 32 0x7112FFF0 = some (.vst ⟨1⟩ ⟨2⟩ (-16)) ∧ decodeTableWord 32 0x68990009 = none := by decide

/-- The word `withFetchWord` places runs as the first instruction after reset. -/
theorem test_withFetchWord_runs :
    (nextOf (step (State.reset.withFetchWord 32 0x04101234))).map (fun t => (t.readS ⟨1⟩, t.pc, t.seq))
      = some (0x1234, 4, .running) := by decide

/-! ### One step of each instruction -/

/-- R131, 95 part 2.2: no conversion, NaNs kept. -/
theorem test_vmake : resultV (.vmake ⟨0⟩ ⟨1⟩ ⟨2⟩ ⟨1⟩ ⟨3⟩) (((small.writeS ⟨1⟩ 0x3F800000).writeS ⟨2⟩ 0x7F800001).writeS ⟨3⟩ 0x80000000)
    = some (lanes 0x3F800000 0x7F800001 0x3F800000 0x80000000) := by decide

theorem test_vext : (nextOf (exec (.vext ⟨3⟩ ⟨1⟩ .z) (based 0))).map (fun t => t.readS ⟨3⟩) = some 0x40400000 := by
  decide

theorem test_vins : (nextOf (exec (.vins ⟨1⟩ ⟨2⟩ .w) (based 0xBF800000))).map (fun t => t.readV ⟨1⟩)
    = some (lanes 0x3F800000 0x40000000 0x40400000 0xBF800000) := by decide

/-- The operands of S11. -/
def rawBits : State := operands (lanes 0x80000000 0x7FC00001 0xFFFFFFFF 0x00000000) (lanes 0x7FC00001 0x80000000 0x80000000 0x7FC00001)

theorem test_vand : resultV (.vand ⟨0⟩ ⟨1⟩ ⟨2⟩) rawBits = some (lanes 0x00000000 0x00000000 0x80000000 0x00000000) := by
  decide
theorem test_vor : resultV (.vor ⟨0⟩ ⟨1⟩ ⟨2⟩) rawBits = some (lanes 0xFFC00001 0xFFC00001 0xFFFFFFFF 0x7FC00001) := by
  decide
theorem test_vxor : resultV (.vxor ⟨0⟩ ⟨1⟩ ⟨2⟩) rawBits = some (lanes 0xFFC00001 0xFFC00001 0x7FFFFFFF 0x7FC00001) := by
  decide
theorem test_vandn : resultV (.vandn ⟨0⟩ ⟨1⟩ ⟨2⟩) rawBits = some (lanes 0x7FC00001 0x80000000 0x00000000 0x7FC00001) := by
  decide

/-- 95 part 2.4, four rows of the table in the four lanes; likewise below. -/
theorem test_vadd : resultV (.vadd ⟨0⟩ ⟨1⟩ ⟨2⟩)
    (operands (lanes 0x3F800000 0x7F7FFFFF 0x00800000 0x3F800000) (lanes 0x33800000 0x73000000 0x80000001 0x7F800001))
    = some (lanes 0x3F800000 0x7F800000 0x007FFFFF 0x7FC00001) := by decide
theorem test_vadd_rounds_up : resultV (.vadd ⟨0⟩ ⟨1⟩ ⟨2⟩)
    (operands (lanes 0x3F800000 0x7F7FFFFF 0x80000000 0x7F800000) (lanes 0x33800001 0x72FFFFFF 0x80000000 0xFF800000))
    = some (lanes 0x3F800001 0x7F7FFFFF 0x80000000 0xFFC00000) := by decide +kernel
theorem test_vsub : resultV (.vsub ⟨0⟩ ⟨1⟩ ⟨2⟩)
    (operands (lanes 0x40400000 0x3F800000 0x7F800000 0x80000000) (lanes 0x3F800000 0xFFC00005 0x7F800000 0x00000000))
    = some (lanes 0x40000000 0xFFC00005 0xFFC00000 0x80000000) := by decide
theorem test_vmul : resultV (.vmul ⟨0⟩ ⟨1⟩ ⟨2⟩)
    (operands (lanes 0x40400000 0x7F800000 0x00000001 0x00000003) (lanes 0xC0000000 0x00000000 0x3F000000 0x3F000000))
    = some (lanes 0xC0C00000 0xFFC00000 0x00000000 0x00000002) := by decide
theorem test_vdiv : resultV (.vdiv ⟨0⟩ ⟨1⟩ ⟨2⟩)
    (operands (lanes 0x3F800000 0xBF800000 0x00000000 0x40000000) (lanes 0x40400000 0x00000000 0x00000000 0xFF800000))
    = some (lanes 0x3EAAAAAB 0xFF800000 0xFFC00000 0x80000000) := by decide
theorem test_vmin : resultV (.vmin ⟨0⟩ ⟨1⟩ ⟨2⟩)
    (operands (lanes 0x3F800000 0x7FC00000 0x00000000 0x3F800000) (lanes 0x40000000 0x3F800000 0x80000000 0x7F800001))
    = some (lanes 0x3F800000 0x3F800000 0x80000000 0x7F800001) := by decide
theorem test_vmax : resultV (.vmax ⟨0⟩ ⟨1⟩ ⟨2⟩)
    (operands (lanes 0x3F800000 0x3F800000 0x80000000 0xFF800000) (lanes 0x40000000 0x7FC00000 0x00000000 0xC0400000))
    = some (lanes 0x40000000 0x7FC00000 0x00000000 0xC0400000) := by decide
theorem test_vrcp : resultV (.vrcp ⟨0⟩ ⟨1⟩) (operands (lanes 0x40400000 0x80000000 0x7F7FFFFF 0x00000001) 0)
    = some (lanes 0x3EAAAAAB 0xFF800000 0x00200000 0x7F800000) := by decide +kernel
theorem test_vsqrt : resultV (.vsqrt ⟨0⟩ ⟨1⟩) (operands (lanes 0x40000000 0x80000000 0xC0800000 0x7F7FFFFF) 0)
    = some (lanes 0x3FB504F3 0x80000000 0xFFC00000 0x5F7FFFFF) := by decide +kernel
theorem test_vrsqrt : resultV (.vrsqrt ⟨0⟩ ⟨1⟩) (operands (lanes 0x40400000 0x80000000 0xFF800000 0x00000001) 0)
    = some (lanes 0x3F13CD3A 0xFF800000 0xFFC00000 0x64B504F3) := by decide +kernel

/-- V1 = (1, 2, 3, 4), V2 = (5, 6, 7, 8). -/
def counting : State :=
  operands (lanes 0x3F800000 0x40000000 0x40400000 0x40800000) (lanes 0x40A00000 0x40C00000 0x40E00000 0x41000000)

theorem test_vhadd : resultV (.vhadd ⟨0⟩ ⟨1⟩ ⟨2⟩) counting = some (lanes 0x40400000 0x40E00000 0x41300000 0x41700000) := by
  decide
theorem test_vhsub : resultV (.vhsub ⟨0⟩ ⟨1⟩ ⟨2⟩)
    (operands (lanes 0x3F800000 0x3F800000 0x7F800000 0x7F800000) (lanes 0x80000000 0x00000000 0x3F800000 0x7F800001))
    = some (lanes 0x00000000 0xFFC00000 0x80000000 0x7FC00001) := by decide
theorem test_vaddsub : resultV (.vaddsub ⟨0⟩ ⟨1⟩ ⟨2⟩) counting = some (lanes 0xC0800000 0x41000000 0xC0800000 0x41400000) := by
  decide

theorem test_vdupl : resultV (.vdupl ⟨0⟩ ⟨1⟩) counting = some (lanes 0x3F800000 0x3F800000 0x40400000 0x40400000) := by
  decide
theorem test_vduph : resultV (.vduph ⟨0⟩ ⟨1⟩) counting = some (lanes 0x40000000 0x40000000 0x40800000 0x40800000) := by
  decide
theorem test_vilvl : resultV (.vilvl ⟨0⟩ ⟨1⟩ ⟨2⟩) counting = some (lanes 0x3F800000 0x40A00000 0x40000000 0x40C00000) := by
  decide
theorem test_vilvh : resultV (.vilvh ⟨0⟩ ⟨1⟩ ⟨2⟩) counting = some (lanes 0x40400000 0x40E00000 0x40800000 0x41000000) := by
  decide
theorem test_vshuf_rotate : resultV (.vshuf ⟨0⟩ ⟨1⟩ selectorRotateRight) counting
    = some (lanes 0x40000000 0x40400000 0x40800000 0x3F800000) := by decide
/-- R361: the source is also the destination. -/
theorem test_vshuf_in_place : (nextOf (exec (.vshuf ⟨1⟩ ⟨1⟩ selectorSwap) counting)).map (fun t => t.readV ⟨1⟩)
    = some (lanes 0x40800000 0x40400000 0x40000000 0x3F800000) := by decide

/-- 95 part 2.7: a lane less, a lane greater, zeros of both signs, a NaN. -/
def compared : State :=
  operands (lanes 0x3F800000 0x40000000 0x00000000 0x7FC00000) (lanes 0x40000000 0x3F800000 0x80000000 0x3F800000)

theorem test_vcmpeq : resultV (.vcmpeq ⟨0⟩ ⟨1⟩ ⟨2⟩) compared = some (lanes 0 0 0xFFFFFFFF 0) := by decide
theorem test_vcmplt : resultV (.vcmplt ⟨0⟩ ⟨1⟩ ⟨2⟩) compared = some (lanes 0xFFFFFFFF 0 0 0) := by decide
theorem test_vcmple : resultV (.vcmple ⟨0⟩ ⟨1⟩ ⟨2⟩) compared = some (lanes 0xFFFFFFFF 0 0xFFFFFFFF 0) := by decide
theorem test_vcmpunord : resultV (.vcmpunord ⟨0⟩ ⟨1⟩ ⟨2⟩) compared = some (lanes 0 0 0 0xFFFFFFFF) := by decide
theorem test_vcmpneq : resultV (.vcmpneq ⟨0⟩ ⟨1⟩ ⟨2⟩) compared = some (lanes 0xFFFFFFFF 0xFFFFFFFF 0 0xFFFFFFFF) := by
  decide
theorem test_vcmpnlt : resultV (.vcmpnlt ⟨0⟩ ⟨1⟩ ⟨2⟩) compared = some (lanes 0 0xFFFFFFFF 0xFFFFFFFF 0xFFFFFFFF) := by
  decide
theorem test_vcmpnle : resultV (.vcmpnle ⟨0⟩ ⟨1⟩ ⟨2⟩) compared = some (lanes 0 0xFFFFFFFF 0 0xFFFFFFFF) := by decide
theorem test_vcmpord : resultV (.vcmpord ⟨0⟩ ⟨1⟩ ⟨2⟩) compared = some (lanes 0xFFFFFFFF 0xFFFFFFFF 0xFFFFFFFF 0) := by
  decide

/-- R241, 95 part 2.9: every cast copies the bits, a signalling NaN among them. -/
theorem test_vcasts : ∀ cast ∈ castInstrs,
    resultV (cast ⟨0⟩ ⟨1⟩) (operands (lanes 0x7F800001 0x80000000 0x00000001 0x3F800000) 0)
      = some (lanes 0x7F800001 0x80000000 0x00000001 0x3F800000) := by decide

/-- The lanes of 95 part 2.9 as the casts' views read them. -/
theorem test_views : let v := lanes 0x7FC00001 0x80000000 0x00000001 0x3F800000
    viewLane .s64 v 0 = 0x800000007FC00001 ∧ viewLane .s16 v 3 = 0x8000 ∧ viewLane .u8 v 2 = 192 ∧ viewLane .u8 v 15 = 63 := by
  decide

/-- `based` with the words 0x10, 0x14, 0x18, 0x1C at their own addresses. -/
def addressed (base : Word) : State :=
  { based base with dmem := Memory.writeVector [] 0x10 (lanes 0x10 0x14 0x18 0x1C) }

/-- 95 part 2.8: the effective address wraps to 0x10. -/
theorem test_vld_wraps : (nextOf (exec (.vld ⟨1⟩ ⟨2⟩ 32) (addressed 0xFFFFFFF0))).map (fun t => (t.readV ⟨1⟩, t.pc))
    = some (lanes 0x10 0x14 0x18 0x1C, 4) := by decide
/-- 95 part 2.8: misaligned and out of range reports the misalignment. -/
theorem test_vld_misaligned_first : (nextOf (exec (.vld ⟨1⟩ ⟨2⟩ 0) (addressed 0x208))).map control
    = some (.faulted, .misalignedAccess, 0, 0x208, 0) := by decide
theorem test_vld_access_fault : (nextOf (exec (.vld ⟨1⟩ ⟨2⟩ (-16)) (addressed 0))).map control
    = some (.faulted, .accessFault, 0, 0xFFFFFFF0, 0) := by decide
/-- 95 part 2.8, S15: the bytes at 0xF0 .. 0xFF in memory order. -/
theorem test_vst_bytes : (nextOf (exec (.vst ⟨1⟩ ⟨2⟩ (-16)) (based 0x100))).map (fun t => (List.range 16).map (fun k => t.dmem.read (0xF0 + k)))
    = some [0x00, 0x00, 0x80, 0x3F, 0x00, 0x00, 0x00, 0x40, 0x00, 0x00, 0x40, 0x40, 0x00, 0x00, 0x80, 0x40] := by
  decide
theorem test_vst_misaligned : (nextOf (exec (.vst ⟨1⟩ ⟨2⟩ 4) (based 0x100))).map (fun t => (control t, t.dmem))
    = some ((.faulted, .misalignedAccess, 0, 0x104, 0), []) := by decide
/-- 95 part 2.8: any hint and address, no access and no fault. -/
theorem test_vpref : nextOf (exec (.vpref 1 ⟨2⟩ 3) (based 0xFFFFFFFF)) = some (based 0xFFFFFFFF).advance := by decide

/-- 95 part 2.10. -/
theorem test_lil : (nextOf (exec (.lil ⟨1⟩ 0x1234) (small.writeS ⟨1⟩ 0xFFFFFFFF))).map (fun t => t.readS ⟨1⟩) = some 0x1234 := by
  decide
theorem test_lih : (nextOf (exec (.lih ⟨1⟩ 0x3F80) (small.writeS ⟨1⟩ 0x1234))).map (fun t => t.readS ⟨1⟩) = some 0x3F801234 := by
  decide
theorem test_nop : (nextOf (exec .nop { small with pc := 0x40 })).map control = some (.running, .none, 0, 0, 0x44) := by
  decide
theorem test_halt : (nextOf (exec .halt { small with pc := 0x1C })).map control = some (.halted, .none, 0, 0, 0x20) := by
  decide

/-! ### Faults of the fetch, and the host -/

/-- R301: the last word of IMEM runs, the word after it does not exist. -/
theorem test_fetch_fault : (nextOf (step { small with pc := 0x100 })).map control
    = some (.faulted, .fetchFault, 0x100, 0x100, 0x100) := by decide
/-- R302: FAULT_INFO is the word. -/
theorem test_illegal_instruction : (nextOf (step (small.withFetchWord 32 0x30123001))).map control
    = some (.faulted, .illegalInstruction, 0, 0x30123001, 0) := by decide

/-- A faulted sequencer with a new START_PC. -/
def stopped : State := { takeFault .accessFault 0x200 { small with pc := 0x10 } with startPc := 0x20 }

/-- R41-R44: the window of a faulted sequencer. -/
theorem test_window : windowOffsets.map stopped.readWindow = [0, 3, 0x20, 0x10, 4, 0x10, 0x200] := by decide
/-- R345. -/
theorem test_start : (nextOf (hostAct (.writeWindow 0 1) stopped)).map control = some (.running, .none, 0, 0, 0x20) := by
  decide
/-- R43: bits 1..0 of START_PC read 0. -/
theorem test_start_pc_bits : (nextOf (hostAct (.writeWindow 8 0xFFFFFFFF) stopped)).map (fun t => t.readWindow 8)
    = some 0xFFFFFFFC := by decide
theorem test_host_beyond_dmem : nextOf (hostAct (.writeDmem 0x200 1) stopped) = none := by decide

/-- R94: the symbols of R106 by their pairs. -/
theorem test_selectors : (selectorExpand .x, selectorExpand .y, selectorExpand .z, selectorExpand .w, selectorFrom .w .y)
    = (0x00, 0x55, 0xAA, 0xFF, 0x40) := by decide

/-- R105, 95 part 2.10: `LIF S1, 1.0`. -/
theorem test_lif : (expand (.lif ⟨1⟩ false 1 1)).map encode = [0x04100000, 0x05103F80] := by decide

/-- R104, R107. -/
theorem test_line_store : assembleLine "VST V1, -16(S2)" = some [0x7112FFF0] := by decide
/-- R104: names in small letters, the hint left out; log entry 16: the displacement of `VPREF` left out. -/
theorem test_line_defaults : assembleLine "vpref (s2)" = some [0x72020000] := by decide
/-- R106: the per-lane symbols of `Swap`. -/
theorem test_line_selector : assembleLine "VSHUF V0, V1, XFromW | YFromZ | ZFromY | WFromX" = some [0x5801001B] := by decide
/-- R104, log entry 16: a numeric lane is one decimal digit. -/
theorem test_line_lane : ["VEXT S3, V2, 2", "VEXT S3, V2, 0x2"].map assembleLine = [some [0x11320002], none] := by decide
/-- R104: an immediate that does not fit is an error; R105: `VSEL` with Vt = Vm is none. -/
theorem test_line_errors : ["LIL S1, 65536", "VSEL V0, V1, V2, V3, V1"].map assembleLine = [none, none] := by decide

/-! ### States and operands that meet the hypotheses of each statement -/

/-- The last word of IMEM holds a `VADD`. -/
def atEnd : State := { small with pc := 0xFC, imem := Memory.writeWord [] 0xFC 0x30123000 }

/-- A `VST V1, -16(S2)` waits at pc. -/
def storing : State := (based 0x100).withFetchWord 32 0x7112FFF0

theorem witness_StepRunsDecodedInstruction :
    atEnd.seq = .running ∧ atEnd.pc.toNat + 4 ≤ atEnd.imemSize ∧
    decode (atEnd.imem.readWord atEnd.pc.toNat) = .ok (.vadd ⟨1⟩ ⟨2⟩ ⟨3⟩) := by decide

theorem witness_DecodeOfEncode :
    (Instr.vst ⟨1⟩ ⟨2⟩ (-32768)).wellFormed = true ∧ (Instr.vpref 3 ⟨2⟩ 32767).wellFormed = true := by decide

theorem witness_EncodeOfDecode : decode 0x7232FFFF = .ok (.vpref 3 ⟨2⟩ (-1)) := by decide

theorem witness_DecodeAgreesWithOpcodeTable :
    (⟨"VPREF", 0x72000000, 0xFFC00000⟩ : OpcodeRow) ∈ opcodeTable ∧ (0x7232FFFF#32 &&& 0xFFC00000#32 = 0x72000000#32) ∧
    ∀ row ∈ opcodeTable, 0x01000001#32 &&& row.mask ≠ row.pattern := by decide

theorem witness_IllegalWordsByReason :
    (0x24000000#32).extractLsb' 24 8 ∉ assignedOpcodes ∧
    ((0x68000009#32).extractLsb' 24 8 = 0x68#8 ∧ (0x68000009#32).extractLsb' 4 12 = 0#12 ∧
      9 ≤ ((0x68000009#32).extractLsb' 0 4).toNat) := by decide

theorem witness_DisplacementIsSignExtended :
    decode 0x70128000 = .ok (.vld ⟨1⟩ ⟨2⟩ (-32768)) ∧ decode 0x71127FFF = .ok (.vst ⟨1⟩ ⟨2⟩ 32767) ∧
    decode 0x7232FFFF = .ok (.vpref 3 ⟨2⟩ (-1)) := by decide

theorem witness_FetchFaultTaken :
    small.seq = .running ∧ small.imemSize < (0x100#32).toNat + 4 ∧ small.imemSize < (0xFD#32).toNat + 4 := by decide

theorem witness_IllegalInstructionTaken :
    let s := small.withFetchWord 32 0x68000009
    s.seq = .running ∧ s.pc.toNat + 4 ≤ s.imemSize ∧ decode (s.imem.readWord s.pc.toNat) = .error .reservedTag := by
  decide

theorem witness_AccessFaultsTaken :
    ((based 0x1F1).address ⟨2⟩ 0).toNat % 16 ≠ 0 ∧ ((based 0x208).address ⟨2⟩ 0).toNat % 16 ≠ 0 ∧
    ((based 0x200).address ⟨2⟩ 0).toNat % 16 = 0 ∧
      (based 0x200).dmemSize < ((based 0x200).address ⟨2⟩ 0).toNat + 16 := by decide

theorem witness_FaultsArePrecise : ∃ t, step { small with pc := 0x100 } = .next t ∧ t.seq = .faulted := ⟨_, rfl, by decide⟩

theorem witness_StoppedSequencerHasNoStep :
    State.reset.seq ≠ .running ∧ small.halt.seq ≠ .running ∧ stopped.seq ≠ .running := by decide

/-- A `NOP` in the top word of the largest IMEM: pc wraps to 0. -/
def atTop : State :=
  { State.reset with seq := .running, pc := 0xFFFFFFFC, imem := Memory.writeWord [] 0xFFFFFFFC 0x01000000 }

theorem witness_PcAdvancesByFour : (nextOf (step atTop)).map control = some (.running, .none, 0, 0, 0) := by decide

theorem witness_OnlyHaltAndFaultsStop :
    (nextOf (step atEnd)).map State.seq = some .running ∧
    (nextOf (step (small.withFetchWord 32 0x02000000))).map State.seq = some .halted ∧
    (nextOf (step small)).map State.seq = some .faulted := by decide

theorem witness_SequencerNeverWritesImem : (nextOf (step storing)).isSome = true := by decide

theorem witness_OnlyStoresChangeDmem : (nextOf (step storing)).map (fun t => decide (t.dmem ≠ storing.dmem)) = some true := by
  decide

/-- A state that meets the invariant, with bytes in both memories. -/
theorem storing_inv : storing.Inv where
  imemSize_valid := by decide
  dmemSize_valid := by decide
  imem_wf := by decide
  dmem_wf := by decide
  imem_within := by decide
  dmem_within := by decide
  pc_aligned := by decide
  startPc_aligned := by decide
  cause_iff_faulted := by decide
  faultPc_is_pc := by decide
  no_fault_recorded := by decide

theorem witness_StepKeepsInvariant : storing.Inv ∧ (nextOf (step storing)).isSome = true := ⟨storing_inv, by decide⟩

theorem witness_RunsEnd : small.imemSize < 2 ^ 32 ∧ small.seq = .running := by decide

/-- `1/3`; `2^24 + 1`, half way between the two finite values nearest to it; the threshold itself. -/
theorem witness_RoundingIsNearestEven :
    |(⟨-1, 3⟩ : Frac).toRat| < 2 ^ 128 - 2 ^ 103 ∧
    (|(⟨2 ^ 24 + 1, 1⟩ : Frac).toRat| < 2 ^ 128 - 2 ^ 103 ∧ isFinite 0x4B800001 = true ∧
      (value 0x4B800001).toRat ≠ (value (round32 ⟨2 ^ 24 + 1, 1⟩)).toRat ∧
      |(value (round32 ⟨2 ^ 24 + 1, 1⟩)).toRat - (⟨2 ^ 24 + 1, 1⟩ : Frac).toRat|
        = |(value 0x4B800001).toRat - (⟨2 ^ 24 + 1, 1⟩ : Frac).toRat|) ∧
    (2 : ℚ) ^ 128 - 2 ^ 103 ≤ |(⟨2 ^ 128 - 2 ^ 103, 1⟩ : Frac).toRat| := by
  have h1 : round32 ⟨2 ^ 24 + 1, 1⟩ = 0x4B800000 := by decide
  have h2 : value 0x4B800000 = ⟨2 ^ 173, 2 ^ 149⟩ := by decide
  have h3 : value 0x4B800001 = ⟨2 ^ 173 + 2 ^ 150, 2 ^ 149⟩ := by decide
  have h4 : isFinite 0x4B800001 = true := by decide
  rw [h1, h2, h3]
  refine ⟨?_, ⟨?_, h4, ?_, ?_⟩, ?_⟩ <;> norm_num [Frac.toRat, abs_of_pos, abs_of_neg]

theorem witness_NanPropagation :
    isNaN 0x7F800001 = true ∧ isNaN 0x3F800000 = false ∧ isNaN 0xFFFFFFFF = true := by decide

theorem witness_InvalidOperationsGiveDefaultNan :
    isInf 0x7F800000 = true ∧ isInf 0xFF800000 = true ∧ sign 0x7F800000 ≠ sign 0xFF800000 ∧ isZero 0x80000000 = true ∧
    (isNaN 0x80000001 = false ∧ sign 0x80000001 = true ∧ isZero 0x80000001 = false) ∧
    (isNaN 0xFF800000 = false ∧ isZero 0xFF800000 = false) := by decide

/-- The values 1, −1 and 0 the next witnesses use. -/
theorem values_used : (value 0x3F800000).toRat = 1 ∧ (value 0xBF800000).toRat = -1 ∧ (value 0x80000000).toRat = 0 := by
  have h1 : value 0x3F800000 = ⟨2 ^ 149, 2 ^ 149⟩ := by decide
  have h2 : value 0xBF800000 = ⟨-2 ^ 149, 2 ^ 149⟩ := by decide
  have h3 : value 0x80000000 = ⟨0, 2 ^ 149⟩ := by decide
  rw [h1, h2, h3]
  norm_num [Frac.toRat]

theorem finite_used : isFinite 0x3F800000 = true ∧ isFinite 0xBF800000 = true ∧ isFinite 0x80000000 = true := by decide

/-- A sum that is not zero, one that is, and two infinities of one sign. -/
theorem witness_SumIsRoundedOnce :
    (isFinite 0x3F800000 = true ∧ isFinite 0xBF800000 = true) ∧
    ((value 0x3F800000).toRat + (value 0x3F800000).toRat ≠ 0 ∧ (value 0x3F800000).toRat + (value 0xBF800000).toRat = 0) ∧
    (isInf 0x7F800000 = true ∧ isNaN 0x7F800000 = false ∧ sign 0x7F800000 = sign 0x7F800000) := by
  rw [values_used.1, values_used.2.1]
  exact ⟨⟨finite_used.1, finite_used.2.1⟩, by norm_num, by decide⟩

/-- A difference that is not zero, one that is, an infinity less the opposite one, and a finite value less an infinity. -/
theorem witness_DifferenceIsRoundedOnce :
    (isFinite 0x3F800000 = true ∧ isFinite 0xBF800000 = true) ∧
    ((value 0x3F800000).toRat - (value 0xBF800000).toRat ≠ 0 ∧ (value 0x3F800000).toRat - (value 0x3F800000).toRat = 0) ∧
    (isInf 0x7F800000 = true ∧ isNaN 0xFF800000 = false ∧ isInf 0xFF800000 = true ∧ sign 0x7F800000 ≠ sign 0xFF800000) ∧
    isFinite 0x7F7FFFFF = true := by
  rw [values_used.1, values_used.2.1]
  exact ⟨⟨finite_used.1, finite_used.2.1⟩, by norm_num, by decide, by decide⟩

/-- Nonzero factors, a zero factor, an infinity with a nonzero and with a finite operand, and results that are no NaN. -/
theorem witness_ProductAndQuotientAreRoundedOnce :
    (isFinite 0x3F800000 = true ∧ isFinite 0xBF800000 = true ∧ isFinite 0x80000000 = true) ∧
    ((value 0x3F800000).toRat * (value 0xBF800000).toRat ≠ 0 ∧ (value 0x3F800000).toRat * (value 0x80000000).toRat = 0) ∧
    ((value 0x3F800000).toRat ≠ 0 ∧ (value 0xBF800000).toRat ≠ 0 ∧ (value 0x80000000).toRat = 0) ∧
    (isInf 0xFF800000 = true ∧ isNaN 0x7F800000 = false ∧ isZero 0x7F800000 = false) ∧
    isNaN (f32Mul 0x80000000 0x40A00000) = false ∧ isNaN (f32Div 0x40000000 0xFF800000) = false := by
  rw [values_used.1, values_used.2.1, values_used.2.2]
  exact ⟨finite_used, by norm_num, by norm_num, by decide, by decide⟩

theorem witness_OrderIsIntegerOrder : isNaN 0x80000000 = false ∧ isNaN 0x7F800000 = false := by decide

theorem witness_MinMaxSecondOperand :
    isNaN 0x7F800001 = true ∧ f32Eq 0x00000000 0x80000000 = true ∧ f32Lt 0xFF800000 0xC0400000 = true := by decide

/-- The extreme finite patterns; a rational below the threshold and the threshold itself; the least binary64 pattern. -/
theorem witness_WideningIsExactAndNarrowingRoundsOnce :
    (isFinite 0x00000001 = true ∧ isFinite 0xFF7FFFFF = true) ∧
    |(⟨-1, 3⟩ : Frac).toRat| < 2 ^ 1024 - 2 ^ 970 ∧ (2 : ℚ) ^ 1024 - 2 ^ 970 ≤ |(⟨2 ^ 1024 - 2 ^ 970, 1⟩ : Frac).toRat| ∧
    (binary64.isFinite 1#64 = true ∧ binary64.isZero 1#64 = false) := by
  refine ⟨by decide, ?_, ?_, by decide +kernel⟩
  · have h1 : (2 : ℚ) ^ 1024 = 2 ^ 970 * 2 ^ 54 := by rw [← pow_add]
    have h2 : (1 : ℚ) ≤ 2 ^ 970 := one_le_pow₀ (by norm_num)
    have h3 : |(⟨-1, 3⟩ : Frac).toRat| = 1 / 3 := by norm_num [Frac.toRat, abs_of_neg]
    rw [h1, h3]
    generalize (2 : ℚ) ^ 970 = p at h2
    linarith
  · have h : (⟨2 ^ 1024 - 2 ^ 970, 1⟩ : Frac).toRat = 2 ^ 1024 - 2 ^ 970 := by
      simp only [Frac.toRat, Int.cast_sub, Int.cast_pow, Int.cast_ofNat, Nat.cast_one, div_one]
    rw [h]
    exact le_abs_self _

/-- The least and a normal positive pattern; a root between two integers, one at a tie going up and one at a tie going down. -/
theorem witness_Binary64ReciprocalAndSquareRoot :
    (binary64.isFinite 1#64 = true ∧ binary64.isZero 1#64 = false ∧ binary64.sign 1#64 = false) ∧
    (0 < 4 ∧ 0 < nearestEvenSqrt 9 4 ∧ 4 * 9 = 4 * (2 * nearestEvenSqrt 9 4 - 1) ^ 2) ∧
    4 * 1 = 4 * (2 * nearestEvenSqrt 1 4 + 1) ^ 2 := by decide +kernel

theorem witness_ReciprocalAndRoots :
    isNaN 0xFFC00123 = true ∧ isZero 0x80000000 = true ∧ isInf 0xFF800000 = true ∧
    (isInf 0x7F800000 = true ∧ sign 0x7F800000 = false) ∧
    (isNaN 0x80000001 = false ∧ isZero 0x80000001 = false ∧ sign 0x80000001 = true) := by decide

theorem witness_ShuffleSelectsLanes :
    (0x93#8).toNat / 4 ^ laneNumber .x % 4 = laneNumber .w ∧ (0x93#8).toNat / 4 ^ laneNumber .w % 4 = laneNumber .z := by decide

theorem witness_ComparisonsWriteMasks :
    f32Lt (lane (compared.readV ⟨1⟩) .x) (lane (compared.readV ⟨2⟩) .x) = true ∧
    f32Lt (lane (compared.readV ⟨1⟩) .y) (lane (compared.readV ⟨2⟩) .y) = false := by decide

theorem witness_NegatedComparisons :
    f32Unord 0x3F800000 0x3F800000 = false ∧ f32Unord 0x7F800001 0x3F800000 = true := by decide

theorem witness_CastRoundTrip : Instr.vcastS64 ∈ castInstrs ∧ Instr.vcastU8 ∈ castInstrs := by
  constructor <;> simp [castInstrs]

theorem witness_ViewsAreMemoryOrder : 1 < viewLanes .u64 ∧ 15 < viewLanes .s8 := by decide

/-- The lowest and the highest aligned address, for the load, the store and the store followed by a load. -/
theorem witness_aligned_access :
    (((based 0x10).address ⟨2⟩ (-16)).toNat % 16 = 0 ∧ ((based 0x10).address ⟨2⟩ (-16)).toNat + 16 ≤ (based 0x10).dmemSize) ∧
    (((based 0x1F0).address ⟨2⟩ 0).toNat % 16 = 0 ∧
      ((based 0x1F0).address ⟨2⟩ 0).toNat + 16 = (based 0x1F0).dmemSize) := by decide

theorem witness_SelectExpansion :
    (Pseudo.vsel ⟨0⟩ ⟨1⟩ ⟨2⟩ ⟨3⟩ ⟨4⟩).usable = true ∧ (Pseudo.vsel ⟨1⟩ ⟨1⟩ ⟨4⟩ ⟨1⟩ ⟨4⟩).usable = true := by decide

theorem witness_ResetControlState : ∃ t, hostAct .reset storing = .next t := ⟨_, rfl⟩

theorem witness_StartAction : stopped.seq ≠ .running ∧ State.reset.seq ≠ .running ∧ (0xFFFFFFFF#32).getLsbD 0 = true := by decide

theorem witness_StartWhileRunning : storing.seq = .running := by decide

theorem witness_ControlWindow :
    0x1C ∉ windowOffsets ∧ 0x06 ∉ windowOffsets ∧ 0x04 ≠ 0x00 ∧ 0x04 ≠ 0x08 ∧ (0xFFFFFFFE#32).getLsbD 0 = false := by decide

theorem witness_HostRefusedWhileRunning : small.seq = .running := by decide

theorem witness_HostReadsWhatItWrote :
    stopped.seq ≠ .running ∧ 0xFF < stopped.imemSize ∧ 0x1FF < stopped.dmemSize := by decide

theorem witness_HostKeepsInvariant :
    storing.Inv ∧ (∃ t, hostAct .reset storing = .next t) ∧ ∃ t, hostAct (.writeWindow 8 0xFFFFFFFF) storing = .next t :=
  ⟨storing_inv, ⟨_, rfl⟩, ⟨_, rfl⟩⟩

/-- A program that ends with IMEM, an input that ends with DMEM, and a register named once beside one named twice. -/
theorem witness_LaunchRunsProgram :
    let vs : List (VReg × VWord) := [(⟨1⟩, 7), (⟨2⟩, 8), (⟨2⟩, 9)]
    let ss : List (SReg × Word) := [(⟨15⟩, 5)]
    stopped.seq ≠ .running ∧ 0xF8 % 4 = 0 ∧ 0xF8 < 2 ^ 32 ∧ 0xF8 + 4 * [0x01000000#32, 0x02000000#32].length ≤ stopped.imemSize ∧
    0x1FF + [0x7F#8].length ≤ stopped.dmemSize ∧ (⟨1⟩, 7) ∈ vs ∧ (vs.map Prod.fst).count ⟨1⟩ = 1 ∧
    (⟨15⟩, 5) ∈ ss ∧ (ss.map Prod.fst).count ⟨15⟩ = 1 := by decide

end Sys2Proof.Tests
end

section
/-! Proofs of the statements about the machine's state (spec/10_state.md). A step either retires an instruction (`State.Retires`)
or takes a fault; what every step keeps follows from these two cases. -/

namespace Sys2Proof.Machine

/-! ### The two things a step can do (R38, R306) -/

/-- What every retired instruction does to the control state and the memories, whatever register it writes: pc advances, STATE
stays or becomes HALTED (R293), and DMEM takes at most one vector store that passed its access check (R261, R264). -/
structure State.Retires (s t : State) : Prop where
  pc : t.pc = s.pc + 4#32
  seq : t.seq = s.seq ∨ t.seq = .halted
  startPc : t.startPc = s.startPc
  faultCause : t.faultCause = s.faultCause
  faultPc : t.faultPc = s.faultPc
  faultInfo : t.faultInfo = s.faultInfo
  imem : t.imem = s.imem
  dmem : t.dmem = s.dmem ∨ ∃ ea x, s.accessCheck ea = none ∧ t.dmem = s.dmem.writeVector ea.toNat x
  imemSize : t.imemSize = s.imemSize
  dmemSize : t.dmemSize = s.dmemSize

theorem State.retires_retireV (s : State) (vd : VReg) (x : VWord) : s.Retires (s.retireV vd x) := by
  constructor <;> simp

theorem State.retires_retireS (s : State) (sd : SReg) (x : Word) : s.Retires (s.retireS sd x) := by
  constructor <;> simp

theorem State.retires_advance (s : State) : s.Retires s.advance := by
  constructor <;> simp

theorem State.retires_halt (s : State) : s.Retires s.halt := by
  constructor <;> simp

theorem State.retires_retireStore (s : State) {ea : Word} (x : VWord) (h : s.accessCheck ea = none) :
    s.Retires (s.retireStore ea x) where
  pc := rfl
  seq := .inl rfl
  startPc := rfl
  faultCause := rfl
  faultPc := rfl
  faultInfo := rfl
  imem := rfl
  dmem := .inr ⟨ea, x, h, rfl⟩
  imemSize := rfl
  dmemSize := rfl

/-- A fault of an access has a cause of its own (R303). -/
theorem State.cause_ne_none_of_accessCheck {s : State} {ea : Word} {c : Cause} (h : s.accessCheck ea = some c) :
    c ≠ .none := by
  rcases (s.accessCheck_eq_some ea c).mp h with ⟨rfl, -⟩ | ⟨rfl, -⟩ <;> decide

/-- A fault of a fetch has a cause of its own (R301, R302). -/
theorem State.cause_ne_none_of_fetch {s : State} {c : Cause} {info : Word} (h : s.fetch = .error (c, info)) :
    c ≠ .none := by
  rcases (s.fetch_eq_error c info).mp h with ⟨rfl, -⟩ | ⟨rfl, -⟩ <;> decide

theorem exec_retires_or_faults {i : Instr} {s t : State} (h : exec i s = .next t) :
    s.Retires t ∨ ∃ c info, c ≠ .none ∧ t = takeFault c info s := by
  obtain ⟨vd, x, rfl⟩ | ⟨sd, x, rfl⟩ | ⟨vt, sb, off, -, hcheck, rfl⟩ | ⟨sb, off, c, hcheck, rfl⟩ | rfl | ⟨-, rfl⟩ :=
    exec_cases h
  · exact .inl (s.retires_retireV vd x)
  · exact .inl (s.retires_retireS sd x)
  · exact .inl (s.retires_retireStore _ hcheck)
  · exact .inr ⟨c, _, State.cause_ne_none_of_accessCheck hcheck, rfl⟩
  · exact .inl s.retires_advance
  · exact .inl s.retires_halt

/-- A step starts RUNNING, and then retires an instruction or takes a fault that has a cause. -/
theorem step_retires_or_faults {s t : State} (h : step s = .next t) :
    s.seq = .running ∧ (s.Retires t ∨ ∃ c info, c ≠ .none ∧ t = takeFault c info s) := by
  obtain ⟨hrun, ⟨i, -, hexec⟩ | ⟨c, info, hfetch, rfl⟩⟩ := step_cases h
  · exact ⟨hrun, exec_retires_or_faults hexec⟩
  · exact ⟨hrun, .inr ⟨c, info, State.cause_ne_none_of_fetch hfetch, rfl⟩⟩

/-- Retiring never stops the sequencer with a fault. -/
theorem State.Retires.seq_ne_faulted {s t : State} (h : s.Retires t) (hrun : s.seq = .running) : t.seq ≠ .faulted := by
  rcases h.seq with hseq | hseq <;> simp [hseq, hrun]

/-! ### The invariant of a step (R38, R43, R44, R61, R62, R306) -/

/-- Advancing keeps pc's alignment, also where it wraps (R38, R39). -/
theorem extractLsb'_low_add_four (x : Word) : (x + 4#32).extractLsb' 0 2 = x.extractLsb' 0 2 := by
  apply BitVec.eq_of_toNat_eq
  simp only [BitVec.extractLsb'_toNat, BitVec.toNat_add, BitVec.toNat_ofNat, Nat.shiftRight_zero]
  omega

theorem Memory.writeVector_wf {m : Memory} (a : Nat) (v : VWord) (h : m.wf) : (m.writeVector a v).wf :=
  Memory.writeLE_wf a _ 16 h

theorem Memory.writeVector_within {m : Memory} {size : Nat} (a : Nat) (v : VWord) (h : m.within size)
    (ha : a + 16 ≤ size) : (m.writeVector a v).within size :=
  Memory.writeLE_within a _ 16 h ha

/-- DMEM stays canonical and inside its size: the one store a retired instruction makes has passed its range check. -/
theorem State.Retires.dmem_kept {s t : State} (h : s.Retires t) (hs : s.Inv) :
    t.dmem.wf ∧ t.dmem.within s.dmemSize := by
  obtain hsame | ⟨ea, x, hcheck, hstore⟩ := h.dmem
  · rw [hsame]
    exact ⟨hs.dmem_wf, hs.dmem_within⟩
  · obtain ⟨-, hrange⟩ := (s.accessCheck_eq_none ea).mp hcheck
    rw [hstore]
    exact ⟨Memory.writeVector_wf _ x hs.dmem_wf, Memory.writeVector_within _ x hs.dmem_within hrange⟩

/-- A running state records no fault. -/
theorem State.Inv.faultCause_of_running {s : State} (hs : s.Inv) (hrun : s.seq = .running) : s.faultCause = .none := by
  by_contra hcause
  have hfaulted := hs.cause_iff_faulted.mp hcause
  simp [hrun] at hfaulted

theorem State.Retires.inv {s t : State} (h : s.Retires t) (hs : s.Inv) (hrun : s.seq = .running) : t.Inv where
  imemSize_valid := by rw [h.imemSize]; exact hs.imemSize_valid
  dmemSize_valid := by rw [h.dmemSize]; exact hs.dmemSize_valid
  imem_wf := by rw [h.imem]; exact hs.imem_wf
  dmem_wf := (h.dmem_kept hs).1
  imem_within := by rw [h.imem, h.imemSize]; exact hs.imem_within
  dmem_within := by rw [h.dmemSize]; exact (h.dmem_kept hs).2
  pc_aligned := by rw [h.pc, extractLsb'_low_add_four]; exact hs.pc_aligned
  startPc_aligned := by rw [h.startPc]; exact hs.startPc_aligned
  cause_iff_faulted := by simp [h.faultCause, hs.faultCause_of_running hrun, h.seq_ne_faulted hrun]
  faultPc_is_pc hfaulted := absurd hfaulted (h.seq_ne_faulted hrun)
  no_fault_recorded _ := by
    rw [h.faultPc, h.faultInfo]
    exact hs.no_fault_recorded (by simp [hrun])

/-- Fault entry records a cause and the pc that stands there, and touches nothing else the invariant speaks of (R304, R306). -/
theorem takeFault_inv {s : State} {c : Cause} (info : Word) (hs : s.Inv) (hc : c ≠ .none) : (takeFault c info s).Inv where
  imemSize_valid := hs.imemSize_valid
  dmemSize_valid := hs.dmemSize_valid
  imem_wf := hs.imem_wf
  dmem_wf := hs.dmem_wf
  imem_within := hs.imem_within
  dmem_within := hs.dmem_within
  pc_aligned := hs.pc_aligned
  startPc_aligned := hs.startPc_aligned
  cause_iff_faulted := by simp [hc]
  faultPc_is_pc _ := rfl
  no_fault_recorded hnot := absurd rfl hnot

/-- Settles O17: a retired instruction and a fault entry both keep the invariant. -/
theorem stepKeepsInvariant : Obligations.StepKeepsInvariant := by
  unfold Obligations.StepKeepsInvariant
  intro s t hs h
  obtain ⟨hrun, hretires | ⟨c, info, hc, rfl⟩⟩ := step_retires_or_faults h
  · exact hretires.inv hs hrun
  · exact takeFault_inv info hs hc

/-- Settles O13: retiring adds 4 to pc and never faults; a fault entry leaves pc where it stands. -/
theorem pcAdvancesByFour : Obligations.PcAdvancesByFour := by
  unfold Obligations.PcAdvancesByFour
  intro s t h
  obtain ⟨hrun, hretires | ⟨c, info, -, rfl⟩⟩ := step_retires_or_faults h
  · refine ⟨fun _ => ?_, fun hfaulted => absurd hfaulted (hretires.seq_ne_faulted hrun)⟩
    rw [hretires.pc, BitVec.toNat_add]
    rfl
  · exact ⟨fun hnot => absurd rfl hnot, fun _ => rfl⟩

/-- Settles O18: both memories are empty, the sizes are the largest R9 allows, and no fault is recorded. -/
theorem resetMeetsInvariant : Obligations.ResetMeetsInvariant where
  imemSize_valid := by decide
  dmemSize_valid := by decide
  imem_wf := ⟨List.Pairwise.nil, List.forall_mem_nil _⟩
  dmem_wf := ⟨List.Pairwise.nil, List.forall_mem_nil _⟩
  imem_within := List.forall_mem_nil _
  dmem_within := List.forall_mem_nil _
  pc_aligned := rfl
  startPc_aligned := rfl
  cause_iff_faulted := by decide
  faultPc_is_pc := by decide
  no_fault_recorded _ := ⟨rfl, rfl⟩

/-! ### The control window (R41 to R44) -/

@[simp] theorem State.readWindow_ctrl (s : State) : s.readWindow 0x00 = 0#32 := rfl
@[simp] theorem State.readWindow_status (s : State) : s.readWindow 0x04 = s.status := rfl
@[simp] theorem State.readWindow_startPc (s : State) : s.readWindow 0x08 = s.startPc := rfl
@[simp] theorem State.readWindow_pc (s : State) : s.readWindow 0x0C = s.pc := rfl
@[simp] theorem State.readWindow_faultCause (s : State) :
    s.readWindow 0x10 = (causeCode s.faultCause).setWidth 32 := rfl
@[simp] theorem State.readWindow_faultPc (s : State) : s.readWindow 0x14 = s.faultPc := rfl
@[simp] theorem State.readWindow_faultInfo (s : State) : s.readWindow 0x18 = s.faultInfo := rfl

/-- An offset that names no control register reads 0 (R41). -/
theorem State.readWindow_other (s : State) {offset : Nat} (h : offset ∉ windowOffsets) : s.readWindow offset = 0#32 := by
  unfold State.readWindow
  split
  case h_8 => rfl
  all_goals exact absurd (by decide) h

/-- CTRL and START_PC are the only offsets a write acts on (R41). -/
theorem State.writeWindow_other (s : State) {offset : Nat} (x : Word) (hctrl : offset ≠ 0x00) (hstart : offset ≠ 0x08) :
    s.writeWindow offset x = s := by
  unfold State.writeWindow
  split
  · exact absurd rfl hctrl
  · exact absurd rfl hstart
  · rfl

/-- A write of CTRL with bit 0 clear starts nothing (R42). -/
theorem State.writeWindow_ctrl_clear (s : State) {x : Word} (h : x.getLsbD 0 = false) : s.writeWindow 0x00 x = s := by
  simp only [State.writeWindow, h, Bool.false_and, Bool.false_eq_true, if_false]

/-- With STATE IDLE and every register behind it 0, the whole window reads 0. -/
theorem State.readWindow_eq_zero {s : State} (hseq : s.seq = .idle) (hpc : s.pc = 0) (hstart : s.startPc = 0)
    (hcause : s.faultCause = .none) (hfaultPc : s.faultPc = 0) (hinfo : s.faultInfo = 0) (offset : Nat) :
    s.readWindow offset = 0#32 := by
  by_cases h : offset ∈ windowOffsets
  · simp only [windowOffsets, List.mem_cons, List.not_mem_nil, or_false] at h
    rcases h with rfl | rfl | rfl | rfl | rfl | rfl | rfl <;>
      simp [State.status, causeCode, hseq, hpc, hstart, hcause, hfaultPc, hinfo]
  · exact s.readWindow_other h

/-- Settles O53: both kinds of reset clear the control state, and so the whole control window. -/
theorem resetControlState : Obligations.ResetControlState := by
  unfold Obligations.ResetControlState
  rintro t (rfl | ⟨s, hreset⟩)
  · exact ⟨rfl, rfl, rfl, rfl, rfl, rfl, State.readWindow_eq_zero rfl rfl rfl rfl rfl rfl⟩
  · obtain rfl : s.hostReset = t := Host.Outcome.next.inj hreset
    exact ⟨rfl, rfl, rfl, rfl, rfl, rfl, State.readWindow_eq_zero rfl rfl rfl rfl rfl rfl⟩

/-- Settles O56, offset by offset; STATUS and FAULT_CAUSE by the values of their fields. -/
theorem controlWindow : Obligations.ControlWindow := by
  unfold Obligations.ControlWindow
  intro s offset x
  refine ⟨s.readWindow_ctrl, s.readWindow_startPc, s.readWindow_pc, s.readWindow_faultPc, s.readWindow_faultInfo,
    ?cause, ?status, s.readWindow_other, fun hctrl hstart => ?other, fun hclear => ?clear⟩
  case cause =>
    rw [s.readWindow_faultCause]
    cases s.faultCause <;> rfl
  case status =>
    rw [s.readWindow_status, State.status]
    cases s.seq <;> rfl
  case other => rw [hostAct, s.writeWindow_other x hctrl hstart]
  case clear => rw [hostAct, s.writeWindow_ctrl_clear hclear]

end Sys2Proof.Machine
end

section
/-! Proofs of the statements about memory (spec/20_memory.md): the faults of an access, what a step can change in the two
address spaces, and the byte order of every view. -/

namespace Sys2Proof.Machine

/-! ### The faults of an access (R67, R68, R264) -/

/-- `EA[3:0]` is the remainder of EA modulo 16 (R67). -/
theorem extractLsb'_low4_eq_zero (ea : Word) : ea.extractLsb' 0 4 = 0#4 ↔ ea.toNat % 16 = 0 := by
  rw [← BitVec.toNat_inj, BitVec.extractLsb'_toNat, Nat.shiftRight_zero]
  rfl

theorem State.accessCheck_of_misaligned {s : State} {ea : Word} (h : ea.toNat % 16 ≠ 0) :
    s.accessCheck ea = some .misalignedAccess :=
  (s.accessCheck_eq_some ea _).mpr (.inl ⟨rfl, mt (extractLsb'_low4_eq_zero ea).mp h⟩)

theorem State.accessCheck_of_outside {s : State} {ea : Word} (haligned : ea.toNat % 16 = 0)
    (hrange : s.dmemSize < ea.toNat + 16) : s.accessCheck ea = some .accessFault :=
  (s.accessCheck_eq_some ea _).mpr (.inr ⟨rfl, (extractLsb'_low4_eq_zero ea).mpr haligned, hrange⟩)

/-- `takeFault` is fault entry as R306 frames it. -/
theorem faultTaken_takeFault (c : Cause) (info : Word) (s : State) : FaultTaken c info s (takeFault c info s) where
  seq := rfl
  faultCause := rfl
  faultPc := rfl
  faultInfo := rfl
  pc := rfl
  vregs _ _ := rfl
  sregs _ _ := rfl
  imem _ := rfl
  dmem _ := rfl
  startPc := rfl
  imemSize := rfl
  dmemSize := rfl
  resets := rfl

/-- A load or store that fails its access check takes the fault the check names, with EA in FAULT_INFO. -/
theorem exec_access_faults {s : State} {vt : VReg} {sb : SReg} {off : Int} {i : Instr} {c : Cause}
    (hi : i ∈ [Instr.vld vt sb off, Instr.vst vt sb off]) (hcheck : s.accessCheck (s.address sb off) = some c) :
    ∃ t, exec i s = .next t ∧ FaultTaken c (s.address sb off) s t := by
  refine ⟨takeFault c (s.address sb off) s, ?_, faultTaken_takeFault ..⟩
  obtain rfl | rfl : i = .vld vt sb off ∨ i = .vst vt sb off := by simpa using hi
  · simp only [exec, execVld, hcheck]
  · simp only [exec, execVst, hcheck]

/-- Settles O10: the access check names the fault, alignment first, and both instructions take it. -/
theorem accessFaultsTaken : Obligations.AccessFaultsTaken := by
  unfold Obligations.AccessFaultsTaken
  intro s vt sb off i hi
  exact ⟨fun hmis => exec_access_faults hi (State.accessCheck_of_misaligned hmis),
    fun haligned hrange => exec_access_faults hi (State.accessCheck_of_outside haligned hrange)⟩

/-! ### What a step writes (R61, R62, R73, R80) -/

/-- Settles O15: neither a retired instruction nor a fault entry touches these four fields. -/
theorem sequencerNeverWritesImem : Obligations.SequencerNeverWritesImem := by
  unfold Obligations.SequencerNeverWritesImem
  intro s t h
  obtain ⟨-, hretires | ⟨c, info, -, rfl⟩⟩ := step_retires_or_faults h
  · exact ⟨hretires.imem, hretires.startPc, hretires.imemSize, hretires.dmemSize⟩
  · exact ⟨rfl, rfl, rfl, rfl⟩

/-- An instruction that changes DMEM is a `VST` that retires. -/
theorem exec_vst_of_dmem_ne {i : Instr} {s t : State} (h : exec i s = .next t) (hne : t.dmem ≠ s.dmem) :
    ∃ vt sb off, i = .vst vt sb off ∧ t = s.retireStore (s.address sb off) (s.readV vt) := by
  obtain ⟨vd, x, rfl⟩ | ⟨sd, x, rfl⟩ | ⟨vt, sb, off, hi, -, ht⟩ | ⟨sb, off, c, -, rfl⟩ | rfl | ⟨-, rfl⟩ := exec_cases h
  case inr.inr.inl => exact ⟨vt, sb, off, hi, ht⟩
  all_goals exact absurd rfl hne

/-- Settles O16: a fault entry keeps DMEM, and the one instruction that changes it stores 16 bytes at its address. -/
theorem onlyStoresChangeDmem : Obligations.OnlyStoresChangeDmem := by
  unfold Obligations.OnlyStoresChangeDmem
  intro s t h hne
  obtain ⟨-, ⟨i, hfetch, hexec⟩ | ⟨c, info, -, rfl⟩⟩ := step_cases h
  · obtain ⟨vt, sb, off, rfl, rfl⟩ := exec_vst_of_dmem_ne hexec hne
    exact ⟨vt, sb, off, hfetch, fun a ha => Memory.read_writeVector_outside _ _ _ _ ha⟩
  · exact absurd rfl hne

/-! ### Byte order of the views (R63, R66, R240) -/

/-- A little-endian read splits at any byte: the low `k` bytes, and above them the bytes from `a + k`. -/
theorem Memory.readLE_add (m : Memory) (a k n : Nat) :
    m.readLE a (k + n) = m.readLE a k + 256 ^ k * m.readLE (a + k) n := by
  induction k generalizing a with
  | zero => simp [Memory.readLE]
  | succ k ih =>
    have hstart : a + (k + 1) = a + 1 + k := by omega
    rw [Nat.add_right_comm k 1 n, hstart]
    simp only [Memory.readLE, ih (a + 1)]
    ring

/-- The `n` bytes from byte `k` of a wide read are the read at `a + k`. -/
theorem Memory.readLE_slice (m : Memory) {a k n size : Nat} (h : k + n ≤ size) :
    m.readLE a size / 256 ^ k % 256 ^ n = m.readLE (a + k) n := by
  obtain ⟨rest, rfl⟩ := Nat.exists_eq_add_of_le h
  rw [Nat.add_assoc, m.readLE_add a k, Nat.add_mul_div_left _ _ (by positivity),
    Nat.div_eq_of_lt (m.readLE_lt a k), Nat.zero_add, m.readLE_add (a + k) n, Nat.add_mul_mod_self_left,
    Nat.mod_eq_of_lt (m.readLE_lt (a + k) n)]

theorem Memory.readVector_toNat (m : Memory) (a : Nat) : (m.readVector a).toNat = m.readLE a 16 := by
  rw [Memory.readVector, BitVec.toNat_ofNat]
  exact Nat.mod_eq_of_lt (m.readLE_lt a 16)

/-- Every lane is a whole number of bytes wide. -/
theorem viewWidth_eq_bytes (view : View) : viewWidth view = 8 * (viewWidth view / 8) := by
  cases view <;> rfl

/-- The lanes of a view are the vector's 16 bytes and no more. -/
theorem viewLanes_mul_bytes (view : View) : viewLanes view * (viewWidth view / 8) = 16 := by
  cases view <;> rfl

/-- A lane as a number, in bytes: those from byte `j * (w / 8)` on, `w / 8` of them. -/
theorem viewLane_toNat (view : View) (v : VWord) (j : Nat) :
    (viewLane view v j).toNat = v.toNat / 256 ^ (j * (viewWidth view / 8)) % 256 ^ (viewWidth view / 8) := by
  have hpow (n : Nat) : 256 ^ n = 2 ^ (8 * n) := by rw [Nat.pow_mul]
  have hstart : viewWidth view * j = 8 * (j * (viewWidth view / 8)) := by
    rw [Nat.mul_left_comm, ← viewWidth_eq_bytes, Nat.mul_comm]
  rw [viewLane, BitVec.extractLsb'_toNat, Nat.shiftRight_eq_div_pow, hpow, hpow, ← hstart, ← viewWidth_eq_bytes]

/-- Settles O44: a lane is a slice of the little-endian number of the 16 bytes, and lies inside them. -/
theorem viewsAreMemoryOrder : Obligations.ViewsAreMemoryOrder := by
  unfold Obligations.ViewsAreMemoryOrder
  intro view m a j hj
  have hinside : j * (viewWidth view / 8) + viewWidth view / 8 ≤ 16 := by
    calc j * (viewWidth view / 8) + viewWidth view / 8
        = (j + 1) * (viewWidth view / 8) := (Nat.succ_mul ..).symm
      _ ≤ viewLanes view * (viewWidth view / 8) := Nat.mul_le_mul_right _ hj
      _ = 16 := viewLanes_mul_bytes view
  rw [viewLane_toNat, Memory.readVector_toNat, m.readLE_slice hinside]

end Sys2Proof.Machine
end

section
/-! Proofs of the statements about decoding and encoding (spec/30_encoding.md). A word is its columns (R91); what the decoder can
answer is said once (`Decoded`), and both directions of the round trip, the reasons of R101 and the opcode table follow. -/

namespace Sys2Proof

open Machine

/-! ### Columns and immediates (R91 to R95) -/

@[simp] theorem decode_toWord (f : Fields) : decode f.toWord = decodeFields f := by
  rw [decode, Fields.ofWord_toWord]

/-- The columns of a word whose bits 15..0 are an immediate: formats SI, M and P. -/
def Fields.withImm16 (op : BitVec 8) (n5 n4 : BitVec 4) (imm16 : BitVec 16) : Fields :=
  ⟨op, n5, n4, imm16.extractLsb' 12 4, imm16.extractLsb' 8 4, imm16.extractLsb' 4 4, imm16.extractLsb' 0 4⟩

@[simp] theorem Fields.imm16_withImm16 (op : BitVec 8) (n5 n4 : BitVec 4) (imm16 : BitVec 16) :
    (Fields.withImm16 op n5 n4 imm16).imm16 = imm16 := by
  simp only [Fields.imm16, Fields.withImm16]
  rw [BitVec.extractLsb'_append_extractLsb'_eq_extractLsb' (show 12 = 8 + 4 from rfl),
    BitVec.extractLsb'_append_extractLsb'_eq_extractLsb' (show 8 = 4 + 4 from rfl),
    BitVec.extractLsb'_append_extractLsb'_eq_extractLsb' (show 4 = 0 + 4 from rfl)]
  exact BitVec.extractLsb'_eq_self

@[simp] theorem Fields.withImm16_imm16 (f : Fields) : Fields.withImm16 f.op f.n5 f.n4 f.imm16 = f := by
  have hn3 : f.imm16.extractLsb' 12 4 = f.n3 := by unfold Fields.imm16; ext; grind
  have hn2 : f.imm16.extractLsb' 8 4 = f.n2 := by unfold Fields.imm16; ext; grind
  have hn1 : f.imm16.extractLsb' 4 4 = f.n1 := by unfold Fields.imm16; ext; grind
  have hn0 : f.imm16.extractLsb' 0 4 = f.n0 := by unfold Fields.imm16; ext; grind
  rw [Fields.withImm16, hn3, hn2, hn1, hn0]

/-- The immediate is bits 15..0 of the word (R92, R93). -/
@[simp] theorem Fields.extractLsb'_toWord_low16 (f : Fields) : f.toWord.extractLsb' 0 16 = f.imm16 := by
  apply BitVec.eq_of_getLsbD_eq
  intro i hi
  simp only [BitVec.getLsbD_extractLsb', Fields.getLsbD_toWord]
  unfold Fields.imm16
  grind

/-- The selector of a shuffle is its two columns (R94). -/
theorem selector_columns (sel : BitVec 8) : sel.extractLsb' 4 4 ++ sel.extractLsb' 0 4 = sel := by
  rw [BitVec.extractLsb'_append_extractLsb'_eq_extractLsb' (show 4 = 0 + 4 from rfl)]
  exact BitVec.extractLsb'_eq_self

/-- The column of a lane has bits 3..2 zero, and its bits 1..0 name the lane (R95). -/
theorem Lane.field_columns (l : Lane) : l.field.extractLsb' 2 2 = 0 ∧ laneOf (l.field.extractLsb' 0 2) = l := by
  cases l <;> decide

/-- A column with bits 3..2 zero is the column of the lane its bits 1..0 name (R95). -/
theorem Lane.field_laneOf : ∀ {n : BitVec 4}, n.extractLsb' 2 2 = 0 → (laneOf (n.extractLsb' 0 2)).field = n := by
  decide

theorem fitsDisplacement_iff (off : Int) : fitsDisplacement off = true ↔ -32768 ≤ off ∧ off ≤ 32767 := by
  simp [fitsDisplacement]

/-- A displacement that fits is the signed number of its 16 bits (R92). -/
theorem toInt_ofInt_of_fits {off : Int} (h : fitsDisplacement off = true) : (BitVec.ofInt 16 off).toInt = off := by
  obtain ⟨hlow, hhigh⟩ := (fitsDisplacement_iff off).mp h
  exact BitVec.toInt_ofInt_eq_self (by decide) (by omega) (by omega)

/-- Every 16-bit field holds a displacement that fits (R92). -/
theorem fitsDisplacement_toInt (imm16 : BitVec 16) : fitsDisplacement imm16.toInt = true := by
  have hlow := imm16.le_toInt
  have hhigh := imm16.toInt_lt
  rw [fitsDisplacement_iff]
  omega

/-- The column of a hint that fits has bits 3..2 zero, and its bits 1..0 are the hint (R98). -/
theorem hint_columns {hint : Nat} (h : fitsHint hint = true) :
    (BitVec.ofNat 4 hint).extractLsb' 2 2 = 0 ∧ ((BitVec.ofNat 4 hint).extractLsb' 0 2).toNat = hint := by
  have hlt : hint < 4 := of_decide_eq_true h
  interval_cases hint <;> decide

/-- A column with bits 3..2 zero is the column of the hint its bits 1..0 are, and that hint fits (R98). -/
theorem hint_of_column : ∀ {n : BitVec 4}, n.extractLsb' 2 2 = 0 →
    fitsHint (n.extractLsb' 0 2).toNat = true ∧ BitVec.ofNat 4 (n.extractLsb' 0 2).toNat = n := by
  decide

/-! ### Decoding what the encoder wrote (R91, R104) -/

theorem decodeSI_columns (op : BitVec 8) (sd : SReg) (imm16 : BitVec 16) (mk : SReg → BitVec 16 → Instr) :
    decodeSI (.withImm16 op sd.field 0 imm16) mk = .ok (mk sd imm16) := by
  rw [decodeSI, Fields.imm16_withImm16]
  rfl

theorem decodeSVL_columns (op : BitVec 8) (sd : SReg) (va : VReg) (l : Lane) (mk : SReg → VReg → Lane → Instr) :
    decodeSVL ⟨op, sd.field, va.field, 0, 0, 0, l.field⟩ mk = .ok (mk sd va l) := by
  obtain ⟨hzero, hlane⟩ := l.field_columns
  simp [decodeSVL, hzero, hlane]

theorem decodeVSL_columns (op : BitVec 8) (vd : VReg) (sa : SReg) (l : Lane) (mk : VReg → SReg → Lane → Instr) :
    decodeVSL ⟨op, vd.field, sa.field, 0, 0, 0, l.field⟩ mk = .ok (mk vd sa l) := by
  obtain ⟨hzero, hlane⟩ := l.field_columns
  simp [decodeVSL, hzero, hlane]

theorem decodeVVI_columns (op : BitVec 8) (vd va : VReg) (sel : BitVec 8) (mk : VReg → VReg → BitVec 8 → Instr) :
    decodeVVI ⟨op, vd.field, va.field, 0, 0, sel.extractLsb' 4 4, sel.extractLsb' 0 4⟩ mk = .ok (mk vd va sel) := by
  simp [decodeVVI, selector_columns]

theorem decodeM_columns (op : BitVec 8) (vt : VReg) (sb : SReg) {off : Int} (h : fitsDisplacement off = true)
    (mk : VReg → SReg → Int → Instr) :
    decodeM (.withImm16 op vt.field sb.field (.ofInt 16 off)) mk = .ok (mk vt sb off) := by
  rw [decodeM, Fields.imm16_withImm16, toInt_ofInt_of_fits h]
  rfl

theorem decodeP_columns (op : BitVec 8) {hint : Nat} (sb : SReg) {off : Int} (hhint : fitsHint hint = true)
    (hoff : fitsDisplacement off = true) (mk : Nat → SReg → Int → Instr) :
    decodeP (.withImm16 op (.ofNat 4 hint) sb.field (.ofInt 16 off)) mk = .ok (mk hint sb off) := by
  obtain ⟨hzero, hvalue⟩ := hint_columns hhint
  rw [decodeP, Fields.imm16_withImm16, toInt_ofInt_of_fits hoff]
  simp only [Fields.withImm16, hzero, hvalue, if_true]
  rfl

/-- Settles O3, by the instruction: an immediate, a lane, a selector or a hint is put together again from its columns; where
every column is a register number or a constant, decoding computes. -/
theorem decodeOfEncode : Obligations.DecodeOfEncode := by
  unfold Obligations.DecodeOfEncode
  intro i hwf
  cases i
  case lil sd imm16 => exact (decode_toWord _).trans (decodeSI_columns ..)
  case lih sd imm16 => exact (decode_toWord _).trans (decodeSI_columns ..)
  case vext sd va l => exact (decode_toWord _).trans (decodeSVL_columns ..)
  case vins vd sa l => exact (decode_toWord _).trans (decodeVSL_columns ..)
  case vshuf vd va sel => exact (decode_toWord _).trans (decodeVVI_columns ..)
  case vld vt sb off => exact (decode_toWord _).trans (decodeM_columns _ _ _ hwf _)
  case vst vt sb off => exact (decode_toWord _).trans (decodeM_columns _ _ _ hwf _)
  case vpref hint sb off =>
    obtain ⟨hhint, hoff⟩ := Bool.and_eq_true_iff.mp hwf
    exact (decode_toWord _).trans (decodeP_columns _ _ hhint hoff _)
  all_goals exact decode_toWord _

/-! ### What the decoder can answer (R100, R101) -/

/-- Everything the decoder can answer for a word with these columns: one of the three reasons of R101, or the one well-formed
instruction that the word encodes. -/
inductive Decoded (f : Fields) : Except DecodeError Instr → Prop
  | unassigned (hop : f.op ∉ assignedOpcodes) : Decoded f (.error .unassignedOpcode)
  | mustBeZero (hop : f.op ∈ assignedOpcodes) : Decoded f (.error .mustBeZero)
  | reservedTag (hop : f.op = 0x68#8) (hzero : f.n3 = 0 ∧ f.n2 = 0 ∧ f.n1 = 0) (htag : 9 ≤ f.n0.toNat) :
      Decoded f (.error .reservedTag)
  | instr {i : Instr} (hop : f.op ∈ assignedOpcodes) (hwf : i.wellFormed = true) (hword : encode i = f.toWord) :
      Decoded f (.ok i)

/-- The shape of a format decoder: an instruction where the must-be-zero bits are zero. -/
theorem Decoded.of_ite {f : Fields} {op : BitVec 8} (hop : f.op = op) (hmem : op ∈ assignedOpcodes) {c : Prop} [Decidable c]
    {i : Instr} (h : c → i.wellFormed = true ∧ encode i = f.toWord) :
    Decoded f (if c then .ok i else .error .mustBeZero) := by
  subst hop
  split_ifs with hc
  · exact .instr hmem (h hc).1 (h hc).2
  · exact .mustBeZero hmem

/-- R96: what a predicate column selects is the comparison that the encoder writes with it. -/
theorem encode_compareOf {pred : BitVec 4} {mk : VReg → VReg → VReg → Instr} (h : compareOf pred = some mk)
    (vd va vb : VReg) : (mk vd va vb).wellFormed = true ∧ encode (mk vd va vb) = encodeVVV 0x60 vd va vb pred := by
  unfold compareOf at h
  split at h <;> cases h <;> exact ⟨rfl, rfl⟩

/-- R97: what a tag names is the reinterpretation that the encoder writes with it. -/
theorem encode_castOf {tag : BitVec 4} {mk : VReg → VReg → Instr} (h : castOf tag = some mk) (vd va : VReg) :
    (mk vd va).wellFormed = true ∧ encode (mk vd va) = encodeVV 0x68 vd va tag := by
  unfold castOf at h
  split at h <;> cases h <;> exact ⟨rfl, rfl⟩

/-- R97: tags 9 .. 15 are the reserved ones. -/
theorem castOf_eq_none : ∀ tag : BitVec 4, castOf tag = none ↔ 9 ≤ tag.toNat := by
  decide

theorem encodeSI_imm16 {f : Fields} (h : f.n4 = 0) : encodeSI f.op (sregOf f.n5) f.imm16 = f.toWord := by
  conv_rhs => rw [← f.withImm16_imm16, h]
  rfl

theorem encodeM_imm16 (f : Fields) : encodeM f.op f.n5 (sregOf f.n4) f.imm16.toInt = f.toWord := by
  conv_rhs => rw [← f.withImm16_imm16, ← BitVec.ofInt_toInt (x := f.imm16)]
  rfl

theorem encodeVVI_selector (op : BitVec 8) (vd va : VReg) (n1 n0 : BitVec 4) :
    encodeVVI op vd va (n1 ++ n0) = Fields.toWord ⟨op, vd.field, va.field, 0, 0, n1, n0⟩ := by
  rw [encodeVVI, BitVec.extractLsb'_append_eq_left, BitVec.extractLsb'_append_eq_right]

/-! One lemma per format of R91, for the instructions `mk` that the encoder writes in that format. -/

section Formats

variable {f : Fields} {op : BitVec 8} (hop : f.op = op) (hmem : op ∈ assignedOpcodes)
include hop hmem

theorem decoded_N {i : Instr} (h : i.wellFormed = true ∧ encode i = encodeN op) : Decoded f (decodeN f i) := by
  obtain ⟨_, n5, n4, n3, n2, n1, n0⟩ := f
  obtain rfl := hop
  exact .of_ite rfl hmem (by rintro ⟨rfl, rfl, rfl, rfl, rfl, rfl⟩; exact h)

theorem decoded_SI {mk : SReg → BitVec 16 → Instr}
    (h : ∀ sd imm16, (mk sd imm16).wellFormed = true ∧ encode (mk sd imm16) = encodeSI op sd imm16) :
    Decoded f (decodeSI f mk) := by
  obtain rfl := hop
  exact .of_ite rfl hmem fun hn4 => ⟨(h ..).1, (h ..).2.trans (encodeSI_imm16 hn4)⟩

theorem decoded_VS4 {mk : VReg → SReg → SReg → SReg → SReg → Instr}
    (h : ∀ vd sx sy sz sw, (mk vd sx sy sz sw).wellFormed = true ∧
      encode (mk vd sx sy sz sw) = encodeVS4 op vd sx sy sz sw) : Decoded f (decodeVS4 f mk) := by
  obtain ⟨_, n5, n4, n3, n2, n1, n0⟩ := f
  obtain rfl := hop
  exact .of_ite rfl hmem (by rintro rfl; exact h ..)

theorem decoded_SVL {mk : SReg → VReg → Lane → Instr}
    (h : ∀ sd va l, (mk sd va l).wellFormed = true ∧ encode (mk sd va l) = encodeSVL op sd va l) :
    Decoded f (decodeSVL f mk) := by
  obtain ⟨_, n5, n4, n3, n2, n1, n0⟩ := f
  obtain rfl := hop
  refine .of_ite rfl hmem ?_
  rintro ⟨rfl, rfl, rfl, hn0⟩
  refine ⟨(h ..).1, (h ..).2.trans ?_⟩
  rw [encodeSVL, Lane.field_laneOf hn0]
  rfl

theorem decoded_VSL {mk : VReg → SReg → Lane → Instr}
    (h : ∀ vd sa l, (mk vd sa l).wellFormed = true ∧ encode (mk vd sa l) = encodeVSL op vd sa l) :
    Decoded f (decodeVSL f mk) := by
  obtain ⟨_, n5, n4, n3, n2, n1, n0⟩ := f
  obtain rfl := hop
  refine .of_ite rfl hmem ?_
  rintro ⟨rfl, rfl, rfl, hn0⟩
  refine ⟨(h ..).1, (h ..).2.trans ?_⟩
  rw [encodeVSL, Lane.field_laneOf hn0]
  rfl

theorem decoded_VVV {mk : VReg → VReg → VReg → Instr}
    (h : ∀ vd va vb, (mk vd va vb).wellFormed = true ∧ encode (mk vd va vb) = encodeVVV op vd va vb 0) :
    Decoded f (decodeVVV f mk) := by
  obtain ⟨_, n5, n4, n3, n2, n1, n0⟩ := f
  obtain rfl := hop
  exact .of_ite rfl hmem (by rintro ⟨rfl, rfl, rfl⟩; exact h ..)

theorem decoded_VV {mk : VReg → VReg → Instr}
    (h : ∀ vd va, (mk vd va).wellFormed = true ∧ encode (mk vd va) = encodeVV op vd va 0) :
    Decoded f (decodeVV f mk) := by
  obtain ⟨_, n5, n4, n3, n2, n1, n0⟩ := f
  obtain rfl := hop
  exact .of_ite rfl hmem (by rintro ⟨rfl, rfl, rfl, rfl⟩; exact h ..)

theorem decoded_VVI {mk : VReg → VReg → BitVec 8 → Instr}
    (h : ∀ vd va sel, (mk vd va sel).wellFormed = true ∧ encode (mk vd va sel) = encodeVVI op vd va sel) :
    Decoded f (decodeVVI f mk) := by
  obtain ⟨_, n5, n4, n3, n2, n1, n0⟩ := f
  obtain rfl := hop
  refine .of_ite rfl hmem ?_
  rintro ⟨rfl, rfl⟩
  exact ⟨(h ..).1, (h ..).2.trans (encodeVVI_selector ..)⟩

theorem decoded_M {mk : VReg → SReg → Int → Instr}
    (h : ∀ vt sb off, (mk vt sb off).wellFormed = fitsDisplacement off ∧
      encode (mk vt sb off) = encodeM op vt.field sb off) : Decoded f (decodeM f mk) := by
  obtain rfl := hop
  exact .instr hmem ((h ..).1.trans (fitsDisplacement_toInt _)) ((h ..).2.trans (encodeM_imm16 f))

end Formats

theorem decoded_VVVP {f : Fields} (hop : f.op = 0x60#8) : Decoded f (decodeVVVP f) := by
  have hmem : f.op ∈ assignedOpcodes := hop ▸ by decide
  unfold decodeVVVP
  split
  next mk hmk =>
    obtain ⟨_, n5, n4, n3, n2, n1, n0⟩ := f
    obtain rfl := hop
    exact .of_ite rfl hmem (by rintro ⟨rfl, rfl⟩; exact encode_compareOf hmk ..)
  next => exact .mustBeZero hmem

theorem decoded_VVT {f : Fields} (hop : f.op = 0x68#8) : Decoded f (decodeVVT f) := by
  have hmem : f.op ∈ assignedOpcodes := hop ▸ by decide
  unfold decodeVVT
  split_ifs with hzero
  · split
    next mk hmk =>
      obtain ⟨_, n5, n4, n3, n2, n1, n0⟩ := f
      obtain rfl := hop
      obtain ⟨rfl, rfl, rfl⟩ := hzero
      obtain ⟨hwf, hword⟩ := encode_castOf hmk (vregOf n5) (vregOf n4)
      exact .instr hmem hwf hword
    next hnone => exact .reservedTag hop hzero ((castOf_eq_none _).mp hnone)
  · exact .mustBeZero hmem

theorem decoded_P {f : Fields} (hop : f.op = 0x72#8) : Decoded f (decodeP f .vpref) := by
  refine .of_ite hop (by decide) fun hn5 => ?_
  obtain ⟨hhint, hcolumn⟩ := hint_of_column hn5
  refine ⟨Bool.and_eq_true_iff.mpr ⟨hhint, fitsDisplacement_toInt _⟩, ?_⟩
  rw [encode, hcolumn, ← hop]
  exact encodeM_imm16 f

/-- The opcode map (R100), arm by arm in its order. -/
theorem decoded_decodeFields (f : Fields) : Decoded f (decodeFields f) := by
  unfold decodeFields
  split
  case h_34 => exact .unassigned (by simp_all [assignedOpcodes])
  all_goals rename_i hop
  -- NOP, HALT, LIL, LIH; VMAKE, VEXT, VINS
  iterate 2 exact decoded_N hop (by decide) ⟨rfl, rfl⟩
  iterate 2 exact decoded_SI hop (by decide) fun _ _ => ⟨rfl, rfl⟩
  exact decoded_VS4 hop (by decide) fun _ _ _ _ _ => ⟨rfl, rfl⟩
  exact decoded_SVL hop (by decide) fun _ _ _ => ⟨rfl, rfl⟩
  exact decoded_VSL hop (by decide) fun _ _ _ => ⟨rfl, rfl⟩
  -- the bitwise instructions, VADD to VMAX; VRCP, VSQRT, VRSQRT
  iterate 10 exact decoded_VVV hop (by decide) fun _ _ _ => ⟨rfl, rfl⟩
  iterate 3 exact decoded_VV hop (by decide) fun _ _ => ⟨rfl, rfl⟩
  -- VHADD, VHSUB, VADDSUB; VDUPL, VDUPH; VILVL, VILVH; VSHUF
  iterate 3 exact decoded_VVV hop (by decide) fun _ _ _ => ⟨rfl, rfl⟩
  iterate 2 exact decoded_VV hop (by decide) fun _ _ => ⟨rfl, rfl⟩
  iterate 2 exact decoded_VVV hop (by decide) fun _ _ _ => ⟨rfl, rfl⟩
  exact decoded_VVI hop (by decide) fun _ _ _ => ⟨rfl, rfl⟩
  -- the comparisons, the reinterpretations; VLD, VST, VPREF
  exact decoded_VVVP hop
  exact decoded_VVT hop
  iterate 2 exact decoded_M hop (by decide) fun _ _ _ => ⟨rfl, rfl⟩
  exact decoded_P hop

theorem decoded_decode (w : Word) : Decoded (.ofWord w) (decode w) := decoded_decodeFields _

/-- Settles O4: the decoder answers an instruction only for the word the encoder writes for it. -/
theorem encodeOfDecode : Obligations.EncodeOfDecode := by
  unfold Obligations.EncodeOfDecode
  intro w i h
  have hdecoded := decoded_decode w
  rw [h] at hdecoded
  cases hdecoded with
  | instr _ hwf hword => exact ⟨hwf, hword.trans (Fields.toWord_ofWord w)⟩

/-! ### The reasons of R101 -/

theorem decode_eq_unassigned_iff (w : Word) :
    decode w = .error .unassignedOpcode ↔ (Fields.ofWord w).op ∉ assignedOpcodes := by
  have hdecoded := decoded_decode w
  constructor
  · intro h
    rw [h] at hdecoded
    cases hdecoded with
    | unassigned hop => exact hop
  · intro hop
    cases h : decode w <;> rw [h] at hdecoded <;> cases hdecoded
    case error.unassigned => rfl
    case error.mustBeZero hmem => exact absurd hmem hop
    case error.reservedTag hcast _ _ => exact absurd (hcast ▸ by decide) hop
    case ok.instr hmem _ _ => exact absurd hmem hop

/-- Bits 15..4 are zero when the three columns they are made of are. -/
theorem extractLsb'_mid12_eq_zero (w : Word) : w.extractLsb' 4 12 = 0#12 ↔
    (Fields.ofWord w).n3 = 0 ∧ (Fields.ofWord w).n2 = 0 ∧ (Fields.ofWord w).n1 = 0 := by
  simp only [Fields.ofWord, ← BitVec.toNat_inj, BitVec.extractLsb'_toNat, Nat.shiftRight_eq_div_pow, BitVec.toNat_ofNat,
    BitVec.ofNat_eq_ofNat, Nat.zero_mod]
  omega

/-- The cast opcode with zero bits 15..4 is refused exactly for a reserved tag (log entry 17). -/
theorem decodeFields_reservedTag {f : Fields} (hop : f.op = 0x68#8) (hzero : f.n3 = 0 ∧ f.n2 = 0 ∧ f.n1 = 0)
    (htag : 9 ≤ f.n0.toNat) : decodeFields f = .error .reservedTag := by
  obtain ⟨_, n5, n4, n3, n2, n1, n0⟩ := f
  obtain rfl := hop
  change decodeVVT _ = _
  rw [decodeVVT, if_pos hzero, (castOf_eq_none n0).mpr htag]

theorem decode_eq_reservedTag_iff (w : Word) : decode w = .error .reservedTag ↔
    w.extractLsb' 24 8 = 0x68#8 ∧ w.extractLsb' 4 12 = 0#12 ∧ 9 ≤ (w.extractLsb' 0 4).toNat := by
  rw [extractLsb'_mid12_eq_zero]
  constructor
  · intro h
    have hdecoded := decoded_decode w
    rw [h] at hdecoded
    cases hdecoded with
    | reservedTag hop hzero htag => exact ⟨hop, hzero, htag⟩
  · rintro ⟨hop, hzero, htag⟩
    exact decodeFields_reservedTag hop hzero htag

/-- Settles O6. -/
theorem illegalWordsByReason : Obligations.IllegalWordsByReason :=
  ⟨decode_eq_unassigned_iff, decode_eq_reservedTag_iff, _, (decode_eq_unassigned_iff 0).mpr (by decide)⟩

/-! ### The displacement (R92, R263) -/

theorem encodeM_columns (op : BitVec 8) (first : BitVec 4) (sb : SReg) (off : Int) :
    encodeM op first sb off = (Fields.withImm16 op first sb.field (.ofInt 16 off)).toWord := rfl

/-- Bits 15..0 of the word of a load, store or prefetch, sign-extended, are its displacement modulo 2^32. -/
theorem signExtend_encodeM (op : BitVec 8) (first : BitVec 4) (sb : SReg) {off : Int} (h : fitsDisplacement off = true) :
    ((encodeM op first sb off).extractLsb' 0 16).signExtend 32 = BitVec.ofInt 32 off := by
  rw [encodeM_columns, Fields.extractLsb'_toWord_low16, Fields.imm16_withImm16, BitVec.signExtend, toInt_ofInt_of_fits h]

/-- What R92 says of a displacement, for a word that the encoder wrote in format M or P. -/
theorem displacement_of_encodeM {w : Word} {op : BitVec 8} {first : BitVec 4} {sb : SReg} {off : Int}
    (hoff : fitsDisplacement off = true) (hword : encodeM op first sb off = w) :
    -32768 ≤ off ∧ off ≤ 32767 ∧
      ∀ s : State, s.address sb off = s.readS sb + (w.extractLsb' 0 16).signExtend 32 := by
  obtain ⟨hlow, hhigh⟩ := (fitsDisplacement_iff off).mp hoff
  refine ⟨hlow, hhigh, fun s => ?_⟩
  rw [← hword, signExtend_encodeM op first sb hoff, State.address, effectiveAddress]

/-- Settles O7: a word that decodes is the encoding of its instruction, so its bits 15..0 are the displacement's. -/
theorem displacementIsSignExtended : Obligations.DisplacementIsSignExtended := by
  unfold Obligations.DisplacementIsSignExtended
  rintro w r hint sb off (h | h | h) <;> obtain ⟨hwf, hword⟩ := encodeOfDecode w _ h
  · exact displacement_of_encodeM hwf hword
  · exact displacement_of_encodeM hwf hword
  · exact displacement_of_encodeM (Bool.and_eq_true_iff.mp hwf).2 hword

/-! ### The opcode table (R102) -/

/-- Every word that matches the row decodes to an instruction with the row's mnemonic. -/
def OpcodeRow.Decodes (row : OpcodeRow) : Prop :=
  ∀ w : Word, w &&& row.mask = row.pattern → ∃ i, decode w = .ok i ∧ i.mnemonic = row.mnemonic

/-- Matching a row is checked column by column. -/
theorem OpcodeRow.decodes_of_columns {row : OpcodeRow} {p : Fields} (hp : p = .ofWord row.pattern) (m : Fields)
    (hm : row.mask = m.toWord)
    (h : ∀ f : Fields, f.op &&& m.op = p.op → f.n5 &&& m.n5 = p.n5 → f.n4 &&& m.n4 = p.n4 → f.n3 &&& m.n3 = p.n3 →
      f.n2 &&& m.n2 = p.n2 → f.n1 &&& m.n1 = p.n1 → f.n0 &&& m.n0 = p.n0 →
      ∃ i, decodeFields f = .ok i ∧ i.mnemonic = row.mnemonic) : row.Decodes := by
  intro w hw
  have haccepts : row.accepts (Fields.ofWord w).toWord = true := by simpa [OpcodeRow.accepts] using hw
  rw [row.accepts_toWord _ m p hm (by rw [hp, Fields.toWord_ofWord]), beq_iff_eq] at haccepts
  exact h (Fields.ofWord w) (congrArg Fields.op haccepts) (congrArg Fields.n5 haccepts) (congrArg Fields.n4 haccepts)
    (congrArg Fields.n3 haccepts) (congrArg Fields.n2 haccepts) (congrArg Fields.n1 haccepts) (congrArg Fields.n0 haccepts)

theorem and_fullByte (x : BitVec 8) : x &&& 0xFF = x := BitVec.and_allOnes

theorem and_fullColumn (x : BitVec 4) : x &&& 15 = x := BitVec.and_allOnes

/-- Under the mask 12 a column keeps its bits 3..2 alone. -/
theorem and_highColumn : ∀ {x y : BitVec 4}, x &&& 12 = y → x.extractLsb' 2 2 = y.extractLsb' 2 2 := by decide

/-! One lemma per mask of the table: the columns under the mask are the pattern's, the others are free. -/

section Masks

variable {row : OpcodeRow} {p : Fields} (hp : p = .ofWord row.pattern)
include hp

theorem decodes_N (hm : row.mask = 0xFFFFFFFF) (h : ∃ i, decodeFields p = .ok i ∧ i.mnemonic = row.mnemonic) :
    row.Decodes := by
  refine OpcodeRow.decodes_of_columns hp ⟨0xFF, 15, 15, 15, 15, 15, 15⟩ hm ?_
  simp only [and_fullByte, and_fullColumn]
  rintro ⟨⟩ rfl rfl rfl rfl rfl rfl rfl
  exact h

theorem decodes_SI (hm : row.mask = 0xFF0F0000)
    (h : ∀ n5 n3 n2 n1 n0, ∃ i, decodeFields ⟨p.op, n5, p.n4, n3, n2, n1, n0⟩ = .ok i ∧ i.mnemonic = row.mnemonic) :
    row.Decodes := by
  refine OpcodeRow.decodes_of_columns hp ⟨0xFF, 0, 15, 0, 0, 0, 0⟩ hm ?_
  simp only [and_fullByte, and_fullColumn]
  rintro ⟨⟩ rfl - rfl - - - -
  exact h ..

theorem decodes_VS4 (hm : row.mask = 0xFF00000F)
    (h : ∀ n5 n4 n3 n2 n1, ∃ i, decodeFields ⟨p.op, n5, n4, n3, n2, n1, p.n0⟩ = .ok i ∧ i.mnemonic = row.mnemonic) :
    row.Decodes := by
  refine OpcodeRow.decodes_of_columns hp ⟨0xFF, 0, 0, 0, 0, 0, 15⟩ hm ?_
  simp only [and_fullByte, and_fullColumn]
  rintro ⟨⟩ rfl - - - - - rfl
  exact h ..

theorem decodes_SVL_VSL (hm : row.mask = 0xFF00FFFC)
    (h : ∀ n5 n4 n0, n0.extractLsb' 2 2 = p.n0.extractLsb' 2 2 →
      ∃ i, decodeFields ⟨p.op, n5, n4, p.n3, p.n2, p.n1, n0⟩ = .ok i ∧ i.mnemonic = row.mnemonic) : row.Decodes := by
  refine OpcodeRow.decodes_of_columns hp ⟨0xFF, 0, 0, 15, 15, 15, 12⟩ hm ?_
  simp only [and_fullByte, and_fullColumn]
  rintro ⟨⟩ rfl - - rfl rfl rfl hn0
  exact h _ _ _ (and_highColumn hn0)

theorem decodes_VVV (hm : row.mask = 0xFF000FFF)
    (h : ∀ n5 n4 n3, ∃ i, decodeFields ⟨p.op, n5, n4, n3, p.n2, p.n1, p.n0⟩ = .ok i ∧ i.mnemonic = row.mnemonic) :
    row.Decodes := by
  refine OpcodeRow.decodes_of_columns hp ⟨0xFF, 0, 0, 0, 15, 15, 15⟩ hm ?_
  simp only [and_fullByte, and_fullColumn]
  rintro ⟨⟩ rfl - - - rfl rfl rfl
  exact h ..

theorem decodes_VV (hm : row.mask = 0xFF00FFFF)
    (h : ∀ n5 n4, ∃ i, decodeFields ⟨p.op, n5, n4, p.n3, p.n2, p.n1, p.n0⟩ = .ok i ∧ i.mnemonic = row.mnemonic) :
    row.Decodes := by
  refine OpcodeRow.decodes_of_columns hp ⟨0xFF, 0, 0, 15, 15, 15, 15⟩ hm ?_
  simp only [and_fullByte, and_fullColumn]
  rintro ⟨⟩ rfl - - rfl rfl rfl rfl
  exact h ..

theorem decodes_VVI (hm : row.mask = 0xFF00FF00)
    (h : ∀ n5 n4 n1 n0, ∃ i, decodeFields ⟨p.op, n5, n4, p.n3, p.n2, n1, n0⟩ = .ok i ∧ i.mnemonic = row.mnemonic) :
    row.Decodes := by
  refine OpcodeRow.decodes_of_columns hp ⟨0xFF, 0, 0, 15, 15, 0, 0⟩ hm ?_
  simp only [and_fullByte, and_fullColumn]
  rintro ⟨⟩ rfl - - rfl rfl - -
  exact h ..

theorem decodes_M (hm : row.mask = 0xFF000000)
    (h : ∀ n5 n4 n3 n2 n1 n0, ∃ i, decodeFields ⟨p.op, n5, n4, n3, n2, n1, n0⟩ = .ok i ∧ i.mnemonic = row.mnemonic) :
    row.Decodes := by
  refine OpcodeRow.decodes_of_columns hp ⟨0xFF, 0, 0, 0, 0, 0, 0⟩ hm ?_
  simp only [and_fullByte]
  rintro ⟨⟩ rfl - - - - - -
  exact h ..

theorem decodes_P (hm : row.mask = 0xFFC00000)
    (h : ∀ n5 n4 n3 n2 n1 n0, n5.extractLsb' 2 2 = p.n5.extractLsb' 2 2 →
      ∃ i, decodeFields ⟨p.op, n5, n4, n3, n2, n1, n0⟩ = .ok i ∧ i.mnemonic = row.mnemonic) : row.Decodes := by
  refine OpcodeRow.decodes_of_columns hp ⟨0xFF, 12, 0, 0, 0, 0, 0⟩ hm ?_
  simp only [and_fullByte]
  rintro ⟨⟩ rfl hn5 - - - - -
  exact h _ _ _ _ _ _ (and_highColumn hn5)

end Masks

theorem opcodeRowsScalar_decode : ∀ row ∈ opcodeRowsScalar, row.Decodes := by
  simp only [opcodeRowsScalar, List.forall_mem_cons]
  refine ⟨?_, ?_, ?_, ?_, List.forall_mem_nil _⟩
  iterate 2 exact decodes_N rfl rfl ⟨_, rfl, rfl⟩
  iterate 2 exact decodes_SI rfl rfl fun _ _ _ _ _ => ⟨_, rfl, rfl⟩

theorem opcodeRowsConstruct_decode : ∀ row ∈ opcodeRowsConstruct, row.Decodes := by
  simp only [opcodeRowsConstruct, List.forall_mem_cons]
  refine ⟨?_, ?_, ?_, ?_, ?_, ?_, ?_, List.forall_mem_nil _⟩
  exact decodes_VS4 rfl rfl fun _ _ _ _ _ => ⟨_, rfl, rfl⟩
  iterate 2 exact decodes_SVL_VSL rfl rfl fun _ _ _ hn0 => ⟨_, if_pos ⟨rfl, rfl, rfl, hn0⟩, rfl⟩
  iterate 4 exact decodes_VVV rfl rfl fun _ _ _ => ⟨_, rfl, rfl⟩

theorem opcodeRowsArithmetic_decode : ∀ row ∈ opcodeRowsArithmetic, row.Decodes := by
  simp only [opcodeRowsArithmetic, List.forall_mem_cons]
  refine ⟨?_, ?_, ?_, ?_, ?_, ?_, ?_, ?_, ?_, ?_, ?_, ?_, List.forall_mem_nil _⟩
  iterate 6 exact decodes_VVV rfl rfl fun _ _ _ => ⟨_, rfl, rfl⟩
  iterate 3 exact decodes_VV rfl rfl fun _ _ => ⟨_, rfl, rfl⟩
  iterate 3 exact decodes_VVV rfl rfl fun _ _ _ => ⟨_, rfl, rfl⟩

theorem opcodeRowsPermute_decode : ∀ row ∈ opcodeRowsPermute, row.Decodes := by
  simp only [opcodeRowsPermute, List.forall_mem_cons]
  refine ⟨?_, ?_, ?_, ?_, ?_, List.forall_mem_nil _⟩
  iterate 2 exact decodes_VV rfl rfl fun _ _ => ⟨_, rfl, rfl⟩
  iterate 2 exact decodes_VVV rfl rfl fun _ _ _ => ⟨_, rfl, rfl⟩
  exact decodes_VVI rfl rfl fun _ _ _ _ => ⟨_, rfl, rfl⟩

theorem opcodeRowsCompare_decode : ∀ row ∈ opcodeRowsCompare, row.Decodes := by
  simp only [opcodeRowsCompare, List.forall_mem_cons]
  refine ⟨?_, ?_, ?_, ?_, ?_, ?_, ?_, ?_, List.forall_mem_nil _⟩
  all_goals exact decodes_VVV rfl rfl fun _ _ _ => ⟨_, rfl, rfl⟩

theorem opcodeRowsCast_decode : ∀ row ∈ opcodeRowsCast, row.Decodes := by
  simp only [opcodeRowsCast, List.forall_mem_cons]
  refine ⟨?_, ?_, ?_, ?_, ?_, ?_, ?_, ?_, ?_, List.forall_mem_nil _⟩
  all_goals exact decodes_VV rfl rfl fun _ _ => ⟨_, rfl, rfl⟩

theorem opcodeRowsMemory_decode : ∀ row ∈ opcodeRowsMemory, row.Decodes := by
  simp only [opcodeRowsMemory, List.forall_mem_cons]
  refine ⟨?_, ?_, ?_, List.forall_mem_nil _⟩
  iterate 2 exact decodes_M rfl rfl fun _ _ _ _ _ _ => ⟨_, rfl, rfl⟩
  exact decodes_P rfl rfl fun _ _ _ _ _ _ hn5 => ⟨_, if_pos hn5, rfl⟩

/-- R102, from the table's side: a word that matches a row is the row's instruction. -/
theorem opcodeTable_decodes : ∀ row ∈ opcodeTable, row.Decodes := by
  simp only [opcodeTable, List.forall_mem_append]
  exact ⟨⟨⟨⟨⟨⟨opcodeRowsScalar_decode, opcodeRowsConstruct_decode⟩, opcodeRowsArithmetic_decode⟩, opcodeRowsPermute_decode⟩,
    opcodeRowsCompare_decode⟩, opcodeRowsCast_decode⟩, opcodeRowsMemory_decode⟩

theorem opcodeTable_mnemonics_nodup : (opcodeTable.map OpcodeRow.mnemonic).Nodup := by decide

open Laws.EncodesItsRow in
/-- R102, from the encoder's side: the word of a well-formed instruction matches a row. -/
theorem encode_matches_row (i : Instr) : Statement i := by
  cases i
  exacts [nop, halt, lil _ _, lih _ _, vmake _ _ _ _ _, vext _ _ _, vins _ _ _, vand _ _ _, vor _ _ _, vxor _ _ _,
    vandn _ _ _, vadd _ _ _, vsub _ _ _, vmul _ _ _, vdiv _ _ _, vmin _ _ _, vmax _ _ _, vrcp _ _, vsqrt _ _,
    vrsqrt _ _, vhadd _ _ _, vhsub _ _ _, vaddsub _ _ _, vdupl _ _, vduph _ _, vilvl _ _ _, vilvh _ _ _, vshuf _ _ _,
    vcmpeq _ _ _, vcmplt _ _ _, vcmple _ _ _, vcmpunord _ _ _, vcmpneq _ _ _, vcmpnlt _ _ _, vcmpnle _ _ _,
    vcmpord _ _ _, vcastF32 _ _, vcastS64 _ _, vcastU64 _ _, vcastS32 _ _, vcastU32 _ _, vcastS16 _ _, vcastU16 _ _,
    vcastS8 _ _, vcastU8 _ _, vld _ _ _, vst _ _ _, vpref _ _ _]

/-- A word that decodes matches a row: it is the encoding of its instruction, which has one. -/
theorem exists_row_of_decode {w : Word} {i : Instr} (h : decode w = .ok i) :
    ∃ row ∈ opcodeTable, w &&& row.mask = row.pattern := by
  obtain ⟨hwf, rfl⟩ := encodeOfDecode w i h
  obtain ⟨row, hmem, -, haccepts⟩ := encode_matches_row i hwf
  exact ⟨row, hmem, beq_iff_eq.mp haccepts⟩

/-- Settles O5. Two rows that match one word are the same: the word decodes to one instruction, and the mnemonics of the table
are distinct. -/
theorem decodeAgreesWithOpcodeTable : Obligations.DecodeAgreesWithOpcodeTable := by
  unfold Obligations.DecodeAgreesWithOpcodeTable
  intro w
  refine ⟨fun row hrow hw => opcodeTable_decodes row hrow w hw, fun row hrow other hother hw hw' => ?unique, fun hnone => ?none⟩
  case unique =>
    obtain ⟨i, hi, hname⟩ := opcodeTable_decodes row hrow w hw
    obtain ⟨j, hj, hname'⟩ := opcodeTable_decodes other hother w hw'
    obtain rfl : i = j := Except.ok.inj (hi.symm.trans hj)
    exact List.inj_on_of_nodup_map opcodeTable_mnemonics_nodup hrow hother (hname.symm.trans hname')
  case none =>
    cases h : decode w with
    | error e => exact ⟨e, rfl⟩
    | ok i =>
      obtain ⟨row, hrow, hw⟩ := exists_row_of_decode h
      exact absurd hw (hnone row hrow)

/-- Settles O2, word by word. -/
theorem workedEncodings : Obligations.WorkedEncodings := by
  unfold Obligations.WorkedEncodings
  decide

end Sys2Proof
end

section
/-! Proofs of the statements about what encoded immediates and the pseudo-instructions do (spec/30_encoding.md R94, R105,
spec/44_permute.md R205). -/

namespace Sys2Proof.Machine

/-! ### The selector of a shuffle (R94, R205) -/

/-- Retiring a vector result changes its destination and pc, and nothing else. -/
theorem State.frameV_retireV (s : State) (vd : VReg) (x : VWord) : FrameV vd s (s.retireV vd x) where
  vregs _ hr := s.retireV_readV_ne x hr
  sregs _ _ := rfl
  imem _ := rfl
  dmem _ := rfl
  control := ⟨rfl, rfl, rfl, rfl, rfl, rfl, rfl, rfl⟩
  pc := rfl

theorem lane_shuffle (v : VWord) (sel : BitVec 8) (d : Lane) : lane (shuffle v sel) d = lane v (selected sel d) := by
  cases d <;> simp [shuffle]

/-- A 2-bit index selects the lane with its number (R94, R95). -/
theorem laneAt_eq_of_toNat : ∀ {i : BitVec 2} {k : Lane}, i.toNat = laneNumber k → laneAt i = k := by
  intro i k
  cases k <;> revert i <;> decide

/-- The selector pair of lane `d` as a number: digit `d` of the selector in base 4 (R94). -/
theorem selected_eq {sel : BitVec 8} {d k : Lane} (h : sel.toNat / 4 ^ laneNumber d % 4 = laneNumber k) :
    selected sel d = k := by
  have hpow : 2 ^ (2 * laneNumber d) = 4 ^ laneNumber d := by rw [Nat.pow_mul]
  apply laneAt_eq_of_toNat
  rw [BitVec.extractLsb'_toNat, Nat.shiftRight_eq_div_pow, hpow]
  exact h

/-- Settles O38: lane `d` is taken from the lane that its base-4 digit of the selector numbers. -/
theorem shuffleSelectsLanes : Obligations.ShuffleSelectsLanes := by
  unfold Obligations.ShuffleSelectsLanes
  intro s vd va sel
  refine ⟨_, rfl, fun d k h => ?_, s.frameV_retireV vd _⟩
  rw [State.retireV_readV_self, lane_shuffle, selected_eq h]

/-! ### `LI` (R105, R281, R282) -/

/-- The high half over the low half that `LIL` leaves is the constant. -/
theorem replaceHigh16_zeroExtend16 (imm32 : Word) :
    replaceHigh16 (imm32.extractLsb' 16 16) (zeroExtend16 (imm32.extractLsb' 0 16)) = imm32 := by
  unfold replaceHigh16 zeroExtend16
  ext i hi
  grind

theorem execAll_li (s : State) (sd : SReg) (imm32 : Word) : execAll (expand (.li sd imm32)) s =
    .next ((s.retireS sd (zeroExtend16 (imm32.extractLsb' 0 16))).retireS sd imm32) := by
  simp [expand, expandLi, execAll, exec, execLil, execLih, replaceHigh16_zeroExtend16]

/-- Settles O51: both words write Sd alone, the second from what the first left there. -/
theorem loadImmediatePair : Obligations.LoadImmediatePair := by
  unfold Obligations.LoadImmediatePair
  intro s sd imm32
  refine ⟨_, execAll_li s sd imm32, State.retireS_readS_self .., fun r hr => ?_⟩
  rw [State.retireS_readS_ne _ _ hr, State.retireS_readS_ne _ _ hr]

/-! ### `VSEL` (R105, R141, R142, R144) -/

/-- The three results of `VSEL` in terms of the state at the start: Vt is none of the registers read after it is written but
by the last instruction, and Vd does not overwrite it (R105). -/
theorem execAll_vsel (s : State) {vd vm va vb vt : VReg} (hm : vm ≠ vt) (hb : vb ≠ vt) (hd : vt ≠ vd) :
    execAll (expand (.vsel vd vm va vb vt)) s =
      .next (((s.retireV vt (s.readV vm &&& s.readV va)).retireV vd (~~~s.readV vm &&& s.readV vb)).retireV vd
        ((~~~s.readV vm &&& s.readV vb) ||| (s.readV vm &&& s.readV va))) := by
  simp [expand, execAll, exec, execVand, execVandn, execVor, State.retireV_readV_ne, hm, hb, hd]

/-- Settles O52: the last result holds the bits of Va under the mask and those of Vb outside it. -/
theorem selectExpansion : Obligations.SelectExpansion := by
  unfold Obligations.SelectExpansion
  intro s vd vm va vb vt husable
  obtain ⟨⟨hm, hb⟩, hd⟩ : (vt ≠ vm ∧ vt ≠ vb) ∧ vd ≠ vt := by simpa [Pseudo.usable] using husable
  refine ⟨_, execAll_vsel s hm.symm hb.symm hd.symm, fun i hi => ?bits, fun r hr => ?frame⟩
  case bits =>
    rw [State.retireV_readV_self]
    simp only [BitVec.getLsbD_or, BitVec.getLsbD_and, BitVec.getLsbD_not, hi]
    cases (s.readV vm).getLsbD i <;> simp
  case frame =>
    obtain ⟨hrd, hrt⟩ := not_or.mp hr
    rw [State.retireV_readV_ne _ _ hrd, State.retireV_readV_ne _ _ hrd, State.retireV_readV_ne _ _ hrt]

end Sys2Proof.Machine
end

section
/-! Proofs of the statements about construction and lane access (spec/40_construction_access.md R131-R133). Each instruction
retires one register result, so a statement comes down to what the lanes or bits of that result are. -/

namespace Sys2Proof.Machine

/-! ### Instructions that retire one register result (R38) -/

/-- Retiring a scalar result changes its destination and pc, and nothing else. -/
theorem State.frameS_retireS (s : State) (sd : SReg) (x : Word) : FrameS sd s (s.retireS sd x) where
  vregs _ _ := rfl
  sregs _ hr := s.retireS_readS_ne x hr
  imem _ := rfl
  dmem _ := rfl
  control := ⟨rfl, rfl, rfl, rfl, rfl, rfl, rfl, rfl⟩
  pc := rfl

/-- An instruction whose meaning is to retire `x` into `V[vd]` meets every description of its result that `x` meets. -/
theorem RetiresV.of_exec {i : Instr} {s : State} {vd : VReg} {x : VWord} {result : VWord → Prop}
    (hexec : exec i s = .next (s.retireV vd x)) (hx : result x) : RetiresV i s vd result :=
  ⟨_, hexec, (s.retireV_readV_self vd x).symm ▸ hx, s.frameV_retireV vd x⟩

/-- An instruction whose meaning is to retire `x` into `S[sd]` meets every description of its result that `x` meets. -/
theorem RetiresS.of_exec {i : Instr} {s : State} {sd : SReg} {x : Word} {result : Word → Prop}
    (hexec : exec i s = .next (s.retireS sd x)) (hx : result x) : RetiresS i s sd result :=
  ⟨_, hexec, (s.retireS_readS_self sd x).symm ▸ hx, s.frameS_retireS sd x⟩

/-! ### `VMAKE` (R131) -/

/-- Settles O20: the result is `lanes` of the four scalar registers, so lane by lane it is the register at that place. -/
theorem vmakeBuildsVector : Obligations.VmakeBuildsVector := by
  unfold Obligations.VmakeBuildsVector
  intro s vd sx sy sz sw
  exact .of_exec rfl ⟨lane_lanes .., lane_lanes .., lane_lanes .., lane_lanes ..⟩

/-! ### `VEXT` and `VINS` (R132, R133) -/

/-- Bit `i` of lane `k` is bit `32k + i` of the vector (R12). -/
theorem getLsbD_lane (v : VWord) (k : Lane) {i : Nat} (hi : i < 32) :
    (lane v k).getLsbD i = v.getLsbD (32 * laneNumber k + i) := by
  simp [lane, hi]

theorem lane_setLane_self (v : VWord) (k : Lane) (x : Word) : lane (setLane v k x) k = x := by
  rw [lane_setLane, if_pos rfl]

theorem lane_setLane_ne (v : VWord) {k j : Lane} (x : Word) (h : j ≠ k) : lane (setLane v k x) j = lane v j := by
  rw [lane_setLane, if_neg h.symm]

/-- Settles O21: VEXT retires the lane itself, VINS the old vector with one lane set. -/
theorem laneAccess : Obligations.LaneAccess := by
  unfold Obligations.LaneAccess
  constructor
  · intro s sd va k
    exact .of_exec rfl fun i hi => getLsbD_lane (s.readV va) k hi
  · intro s vd sa k
    exact .of_exec rfl ⟨lane_setLane_self .., fun j hj => lane_setLane_ne _ _ hj⟩

end Sys2Proof.Machine
end

section
/-! Proofs of the statements about the bitwise instructions (spec/41_bitwise.md R140-R144). Each retires one Boolean
operation on the two operands' raw bits, so a statement comes down to one bit of that operation's result. -/

namespace Sys2Proof.Machine

/-- AndNot complements its first operand (R144). -/
theorem getLsbD_andNot {w : Nat} (x y : BitVec w) {i : Nat} (hi : i < w) :
    (~~~x &&& y).getLsbD i = (!x.getLsbD i && y.getLsbD i) := by
  rw [BitVec.getLsbD_and, BitVec.getLsbD_not, decide_eq_true hi, Bool.true_and]

/-- Settles O22: each instruction retires its Boolean operation on the operands, read off at bit `i`. -/
theorem bitwiseOnRawBits : Obligations.BitwiseOnRawBits := by
  unfold Obligations.BitwiseOnRawBits
  intro s vd va vb
  refine ⟨?vand, ?vor, ?vxor, ?vandn⟩
  case vand => exact .of_exec rfl fun _ _ => BitVec.getLsbD_and
  case vor => exact .of_exec rfl fun _ _ => BitVec.getLsbD_or
  case vxor => exact .of_exec rfl fun _ _ => BitVec.getLsbD_xor
  case vandn => exact .of_exec rfl fun _ hi => getLsbD_andNot _ _ hi

end Sys2Proof.Machine
end

section
/-! Facts about the patterns of a format as numbers (spec/42_arithmetic.md R150, R165): a pattern is its sign and its magnitude
bits, the classes are ranges of the magnitude bits, and a value is a whole number of steps of the least positive value. -/

namespace Sys2Proof.Machine

/-! ### Sign and magnitude bits -/

/-- What binary32 and binary64 share: sign, exponent and fraction fill the word, and the bias is half of the exponent range and
wider than the fraction. -/
structure Format.Fits (f : Format) (w : Nat) : Prop where
  width : w = f.expBits + f.fracBits + 1
  fracBits_pos : 0 < f.fracBits
  fracBits_lt_bias : f.fracBits < f.bias
  maxExp_eq : f.maxExp = 2 * f.bias + 1

theorem binary32_fits : binary32.Fits 32 := by constructor <;> decide

theorem binary64_fits : binary64.Fits 64 := by constructor <;> decide

/-- The magnitude bits: exponent above fraction, without the sign. -/
def Format.bits (f : Format) {w : Nat} (x : BitVec w) : Nat := f.exponent x * 2 ^ f.fracBits + f.fraction x

theorem Format.fraction_lt (f : Format) {w : Nat} (x : BitVec w) : f.fraction x < 2 ^ f.fracBits :=
  (x.extractLsb' 0 f.fracBits).isLt

theorem Format.exponent_le (f : Format) {w : Nat} (x : BitVec w) : f.exponent x ≤ f.maxExp :=
  Nat.le_sub_one_of_lt (x.extractLsb' f.fracBits f.expBits).isLt

theorem Format.bits_eq (f : Format) {w : Nat} (x : BitVec w) : f.bits x = x.toNat % 2 ^ (f.expBits + f.fracBits) := by
  simp only [Format.bits, Format.exponent, Format.fraction, BitVec.extractLsb'_toNat, Nat.shiftRight_eq_div_pow, pow_zero,
    Nat.div_one]
  rw [Nat.add_comm f.expBits, Nat.pow_add, Nat.mod_mul, Nat.add_comm, Nat.mul_comm]

theorem Format.bits_div (f : Format) {w : Nat} (x : BitVec w) : f.bits x / 2 ^ f.fracBits = f.exponent x := by
  rw [Format.bits, Nat.add_comm, Nat.add_mul_div_right _ _ (Nat.two_pow_pos _), Nat.div_eq_of_lt (f.fraction_lt x),
    Nat.zero_add]

theorem Format.bits_mod (f : Format) {w : Nat} (x : BitVec w) : f.bits x % 2 ^ f.fracBits = f.fraction x := by
  rw [Format.bits, Nat.add_comm, Nat.add_mul_mod_self_right, Nat.mod_eq_of_lt (f.fraction_lt x)]

theorem Format.Fits.sign_eq {f : Format} {w : Nat} (hf : f.Fits w) (x : BitVec w) :
    f.sign x = decide (2 ^ (f.expBits + f.fracBits) ≤ x.toNat) := by
  obtain rfl := hf.width
  exact x.msb_eq_getLsbD_last.symm.trans x.msb_eq_decide

/-- A pattern as a number: its sign bit above its magnitude bits. -/
theorem Format.Fits.toNat_eq {f : Format} {w : Nat} (hf : f.Fits w) (x : BitVec w) :
    x.toNat = (if f.sign x then 2 ^ (f.expBits + f.fracBits) else 0) + f.bits x := by
  have hlt : x.toNat < 2 ^ (f.expBits + f.fracBits) * 2 := by
    rw [← Nat.pow_succ, Nat.succ_eq_add_one, ← hf.width]
    exact x.isLt
  rw [hf.sign_eq, f.bits_eq]
  generalize 2 ^ (f.expBits + f.fracBits) = p at hlt ⊢
  by_cases h : p ≤ x.toNat
  · rw [Nat.mod_eq_sub_mod h, Nat.mod_eq_of_lt (by omega)]
    simp [h]
  · rw [Nat.mod_eq_of_lt (by omega)]
    simp [h]

/-- Two patterns with the same sign and the same magnitude bits are the same pattern. -/
theorem Format.Fits.ext {f : Format} {w : Nat} (hf : f.Fits w) {x y : BitVec w} (hsign : f.sign x = f.sign y)
    (hbits : f.bits x = f.bits y) : x = y := by
  apply BitVec.eq_of_toNat_eq
  rw [hf.toNat_eq, hf.toNat_eq, hsign, hbits]

theorem Format.Fits.pack_toNat {f : Format} {w : Nat} (hf : f.Fits w) (neg : Bool) {m : Nat}
    (hm : m < 2 ^ (f.expBits + f.fracBits)) :
    (f.pack w neg m).toNat = (if neg then 2 ^ (f.expBits + f.fracBits) else 0) + m := by
  rw [Format.pack, BitVec.toNat_ofNat, Nat.mod_eq_of_lt]
  rw [hf.width, Nat.pow_succ]
  split <;> omega

theorem Format.Fits.sign_pack {f : Format} {w : Nat} (hf : f.Fits w) (neg : Bool) {m : Nat}
    (hm : m < 2 ^ (f.expBits + f.fracBits)) : f.sign (f.pack w neg m) = neg := by
  rw [hf.sign_eq, hf.pack_toNat neg hm]
  cases neg <;> simp [hm]

theorem Format.Fits.bits_pack {f : Format} {w : Nat} (hf : f.Fits w) (neg : Bool) {m : Nat}
    (hm : m < 2 ^ (f.expBits + f.fracBits)) : f.bits (f.pack w neg m) = m := by
  rw [f.bits_eq, hf.pack_toNat neg hm]
  cases neg <;> simp [Nat.mod_eq_of_lt hm]

/-! ### The classes as ranges of the magnitude bits (R150) -/

theorem Format.infBits_lt (f : Format) : f.infBits < 2 ^ (f.expBits + f.fracBits) := by
  rw [Format.infBits, Format.maxExp, Nat.pow_add]
  exact Nat.mul_lt_mul_of_pos_right (Nat.sub_one_lt (Nat.two_pow_pos _).ne') (Nat.two_pow_pos _)

theorem Format.exponent_eq_maxExp_iff (f : Format) {w : Nat} (x : BitVec w) :
    f.exponent x = f.maxExp ↔ f.infBits ≤ f.bits x := by
  rw [← f.bits_div, Format.infBits, ← Nat.le_div_iff_mul_le (Nat.two_pow_pos _), f.bits_div]
  exact ⟨fun h => h.ge, fun h => (f.exponent_le x).antisymm h⟩

theorem Format.isInf_iff (f : Format) {w : Nat} (x : BitVec w) : f.isInf x = true ↔ f.bits x = f.infBits := by
  simp only [Format.isInf, Bool.and_eq_true, beq_iff_eq]
  constructor
  · rintro ⟨hexp, hfrac⟩
    rw [Format.bits, hexp, hfrac, Format.infBits, Nat.add_zero]
  · intro h
    refine ⟨(f.exponent_eq_maxExp_iff x).mpr h.ge, ?_⟩
    rw [← f.bits_mod, h, Format.infBits, Nat.mul_mod_left]

theorem Format.isNaN_iff (f : Format) {w : Nat} (x : BitVec w) : f.isNaN x = true ↔ f.infBits < f.bits x := by
  have hinf := f.isInf_iff x
  have hexp := f.exponent_eq_maxExp_iff x
  simp only [Format.isInf, Format.isNaN, Bool.and_eq_true, beq_iff_eq, bne_iff_ne] at hinf ⊢
  rw [lt_iff_le_and_ne]
  grind

theorem Format.isZero_iff (f : Format) {w : Nat} (x : BitVec w) : f.isZero x = true ↔ f.bits x = 0 := by
  simp [Format.isZero, Format.bits]

theorem Format.isFinite_iff_bits (f : Format) {w : Nat} (x : BitVec w) :
    f.isFinite x = true ↔ f.bits x < f.infBits := by
  rw [f.isFinite_iff, Bool.eq_false_iff, Bool.eq_false_iff, ne_eq, ne_eq, f.isNaN_iff, f.isInf_iff]
  omega

/-! ### Values in steps of the least positive value -/

/-- The binade of a pattern, counted from the lowest one, which holds the subnormals too. -/
def Format.lead (f : Format) {w : Nat} (x : BitVec w) : Nat := max (f.exponent x) 1 - 1

/-- The magnitude of a value as a multiple of the least positive one, `2 ^ -scale`. -/
def Format.steps (f : Format) {w : Nat} (x : BitVec w) : Nat := f.significand x * 2 ^ f.lead x

theorem Format.value_num (f : Format) {w : Nat} (x : BitVec w) :
    (f.value x).num = if f.sign x then -(f.steps x : Int) else (f.steps x : Int) := rfl

theorem Format.value_toRat (f : Format) {w : Nat} (x : BitVec w) :
    (f.value x).toRat = ((f.value x).num : ℚ) / 2 ^ f.scale := by
  simp [Frac.toRat, Format.value]

theorem Format.significand_lt (f : Format) {w : Nat} (x : BitVec w) : f.significand x < 2 ^ (f.fracBits + 1) := by
  have := f.fraction_lt x
  rw [Format.significand, Nat.pow_succ]
  split <;> omega

theorem Format.lead_eq_zero_or_le_significand (f : Format) {w : Nat} (x : BitVec w) :
    f.lead x = 0 ∨ 2 ^ f.fracBits ≤ f.significand x := by
  unfold Format.lead Format.significand
  split <;> omega

theorem Format.bits_eq_encodeBits (f : Format) {w : Nat} (x : BitVec w) :
    f.bits x = f.encodeBits (f.lead x) (f.significand x) := by
  unfold Format.bits Format.encodeBits Format.lead Format.significand
  split
  case isTrue h => simp [h]
  case isFalse h =>
    obtain ⟨e, he⟩ := Nat.exists_eq_succ_of_ne_zero h
    simp [he, Nat.succ_mul, Nat.add_assoc]

/-- A higher binade has larger magnitude bits. -/
theorem Format.encodeBits_lt_of_lt (f : Format) {b k c j : Nat} (hbc : b < c) (hk : k < 2 ^ (f.fracBits + 1))
    (hj : c = 0 ∨ 2 ^ f.fracBits ≤ j) : f.encodeBits b k < f.encodeBits c j := by
  have hj' : 2 ^ f.fracBits ≤ j := hj.resolve_left (by omega)
  have hmul : (b + 1) * 2 ^ f.fracBits ≤ c * 2 ^ f.fracBits := Nat.mul_le_mul_right _ hbc
  rw [Nat.pow_succ] at hk
  rw [Nat.succ_mul] at hmul
  unfold Format.encodeBits
  omega

/-- Equal magnitude bits are of one binade and one significand. -/
theorem Format.encodeBits_inj (f : Format) {b k c j : Nat} (h : f.encodeBits b k = f.encodeBits c j)
    (hk : k < 2 ^ (f.fracBits + 1)) (hj : j < 2 ^ (f.fracBits + 1)) (hb : b = 0 ∨ 2 ^ f.fracBits ≤ k)
    (hc : c = 0 ∨ 2 ^ f.fracBits ≤ j) : b = c ∧ k = j := by
  obtain hlt | rfl | hgt := lt_trichotomy b c
  · exact absurd h (f.encodeBits_lt_of_lt hlt hk hc).ne
  · exact ⟨rfl, Nat.add_left_cancel h⟩
  · exact absurd h (f.encodeBits_lt_of_lt hgt hj hb).ne'

/-- In binade `b` the magnitude bits `b · 2^fracBits + k` stand for `k` steps of `2^b`, also where `k` carries into the next
binade (log entry 13). -/
theorem Format.steps_of_bits (f : Format) {w : Nat} {x : BitVec w} {b k : Nat} (hbits : f.bits x = f.encodeBits b k)
    (hb : b = 0 ∨ 2 ^ f.fracBits ≤ k) (hk : k ≤ 2 ^ (f.fracBits + 1)) : f.steps x = k * 2 ^ b := by
  have hcanon {c j : Nat} (h : f.encodeBits b k = f.encodeBits c j) (hj : j < 2 ^ (f.fracBits + 1))
      (hc : c = 0 ∨ 2 ^ f.fracBits ≤ j) : f.steps x = j * 2 ^ c := by
    rw [hbits.symm.trans (f.bits_eq_encodeBits x)] at h
    obtain ⟨hlead, hsig⟩ := f.encodeBits_inj h (f.significand_lt x) hj (f.lead_eq_zero_or_le_significand x) hc
    rw [Format.steps, hlead, hsig]
  obtain hlt | rfl := hk.lt_or_eq
  · exact hcanon rfl hlt hb
  · have hcarry : f.encodeBits b (2 ^ (f.fracBits + 1)) = f.encodeBits (b + 1) (2 ^ f.fracBits) := by
      unfold Format.encodeBits
      ring
    rw [hcanon hcarry (Nat.pow_lt_pow_succ (by decide)) (.inr le_rfl)]
    ring

/-- More magnitude bits are more steps. -/
theorem Format.steps_lt_of_bits_lt (f : Format) {w : Nat} {x y : BitVec w} (h : f.bits x < f.bits y) :
    f.steps x < f.steps y := by
  rw [f.bits_eq_encodeBits, f.bits_eq_encodeBits] at h
  obtain hlt | heq | hgt := lt_trichotomy (f.lead x) (f.lead y)
  · have hy := (f.lead_eq_zero_or_le_significand y).resolve_left (by omega)
    calc f.steps x < 2 ^ (f.fracBits + 1) * 2 ^ f.lead x :=
          Nat.mul_lt_mul_of_pos_right (f.significand_lt x) (Nat.two_pow_pos _)
      _ = 2 ^ f.fracBits * 2 ^ (f.lead x + 1) := by ring
      _ ≤ f.steps y := Nat.mul_le_mul hy (Nat.pow_le_pow_right (by decide) hlt)
  · rw [Format.encodeBits, Format.encodeBits, heq, Nat.add_lt_add_iff_left] at h
    rw [Format.steps, Format.steps, heq]
    exact Nat.mul_lt_mul_of_pos_right h (Nat.two_pow_pos _)
  · exact absurd h
      (f.encodeBits_lt_of_lt hgt (f.significand_lt y) (f.lead_eq_zero_or_le_significand x)).le.not_gt

theorem Format.steps_eq_of_bits_eq (f : Format) {w : Nat} {x y : BitVec w} (h : f.bits x = f.bits y) :
    f.steps x = f.steps y := by
  simp only [Format.steps, Format.lead, Format.significand, ← f.bits_div, ← f.bits_mod, h]

theorem Format.steps_lt_iff (f : Format) {w : Nat} (x y : BitVec w) : f.steps x < f.steps y ↔ f.bits x < f.bits y := by
  refine ⟨fun h => ?_, f.steps_lt_of_bits_lt⟩
  by_contra hle
  obtain hlt | heq := (Nat.le_of_not_lt hle).lt_or_eq
  · exact h.not_gt (f.steps_lt_of_bits_lt hlt)
  · exact h.ne' (f.steps_eq_of_bits_eq heq)

end Sys2Proof.Machine
end

section
/-! Rounding to nearest, ties to even (spec/42_arithmetic.md R153-R155, R165). A positive number `q`, counted in steps of the
least positive value, lies in a binade whose values are the multiples of `2^b`; the nearest of them is nearest among all finite
values, since those that are no such multiple lie below the binade. -/

namespace Sys2Proof.Machine

/-! ### The nearest integer -/

/-- `k` is the integer nearest to `t`, the even one at a tie. -/
structure NearestInt (k : Nat) (t : ℝ) : Prop where
  dist_le : |(k : ℝ) - t| ≤ 1 / 2
  even_of_tie : |(k : ℝ) - t| = 1 / 2 → k % 2 = 0

theorem NearestInt.dist_ge_of_ne {k : Nat} {t : ℝ} (h : NearestInt k t) {j : ℤ} (hj : j ≠ k) :
    1 / 2 ≤ |(j : ℝ) - t| := by
  have hone : (1 : ℝ) ≤ |(j : ℝ) - k| := by exact_mod_cast Int.one_le_abs (sub_ne_zero.mpr hj)
  have htri := abs_sub_le (j : ℝ) t k
  rw [abs_sub_comm t] at htri
  linarith [h.dist_le]

theorem NearestInt.dist_le_int {k : Nat} {t : ℝ} (h : NearestInt k t) (j : ℤ) : |(k : ℝ) - t| ≤ |(j : ℝ) - t| := by
  obtain rfl | hj := eq_or_ne j k
  · rfl
  · exact h.dist_le.trans (h.dist_ge_of_ne hj)

theorem NearestInt.even_of_dist_eq {k : Nat} {t : ℝ} (h : NearestInt k t) {j : ℤ} (hj : j ≠ k)
    (heq : |(k : ℝ) - t| = |(j : ℝ) - t|) : k % 2 = 0 :=
  h.even_of_tie (h.dist_le.antisymm (heq ▸ h.dist_ge_of_ne hj))

/-- An integer is nearest to itself alone. -/
theorem NearestInt.eq_of_natCast {k j : Nat} (h : NearestInt k (j : ℝ)) : k = j := by
  by_contra hne
  have hj := h.dist_ge_of_ne (j := j) (by exact_mod_cast Ne.symm hne)
  norm_num at hj

/-- The nearest integer is the floor `k` or the one above it, as `t` lies below or above `k + 1/2`. -/
theorem NearestInt.of_floor {k j : Nat} {t : ℝ} (hfloor : (k : ℝ) ≤ t ∧ t < k + 1)
    (habove : (k : ℝ) + 1 / 2 < t → j = k + 1) (htie : t = k + 1 / 2 → j = k + k % 2)
    (hbelow : t < k + 1 / 2 → j = k) : NearestInt j t := by
  obtain hlt | heq | hgt := lt_trichotomy t (k + 1 / 2)
  · obtain rfl := hbelow hlt
    have habs : |(j : ℝ) - t| < 1 / 2 := abs_lt.mpr ⟨by linarith, by linarith⟩
    exact ⟨habs.le, fun h => absurd h habs.ne⟩
  · obtain rfl := htie heq
    refine ⟨?_, fun _ => by omega⟩
    obtain h | h := Nat.mod_two_eq_zero_or_one k <;> rw [h, heq] <;> push_cast <;> norm_num
  · obtain rfl := habove hgt
    have habs : |((k + 1 : Nat) : ℝ) - t| < 1 / 2 := by
      push_cast
      exact abs_lt.mpr ⟨by linarith, by linarith⟩
    exact ⟨habs.le, fun h => absurd h habs.ne⟩

theorem nearestInt_nearestEven (n : Nat) {d : Nat} (hd : 0 < d) : NearestInt (nearestEven n d) ((n : ℝ) / d) := by
  have hd' : (0 : ℝ) < d := by exact_mod_cast hd
  have hn : (n : ℝ) = d * (n / d : Nat) + (n % d : Nat) := by exact_mod_cast (Nat.div_add_mod n d).symm
  have hr : ((n % d : Nat) : ℝ) < d := by exact_mod_cast Nat.mod_lt n hd
  have ht : (n : ℝ) / d = (n / d : Nat) + (n % d : Nat) / d := by rw [hn]; field_simp
  have hhalf : (1 / 2 : ℝ) = d / (2 * d) := by field_simp
  rw [ht]
  refine .of_floor (k := n / d) ⟨?_, ?_⟩ (fun h => ?above) (fun h => ?tie) (fun h => ?below)
  · exact le_add_of_nonneg_right (by positivity)
  · gcongr
    exact (div_lt_one hd').mpr hr
  case above =>
    have : d < 2 * (n % d) := by
      rw [add_lt_add_iff_left, div_lt_div_iff₀ (by norm_num) hd'] at h
      exact_mod_cast (by linarith : (d : ℝ) < 2 * (n % d : Nat))
    simp [nearestEven, this]
  case tie =>
    have : 2 * (n % d) = d := by
      rw [add_right_inj, div_eq_div_iff hd'.ne' (by norm_num)] at h
      exact_mod_cast (by linarith : 2 * ((n % d : Nat) : ℝ) = d)
    simp [nearestEven, this]
  case below =>
    have : 2 * (n % d) < d := by
      rw [add_lt_add_iff_left, div_lt_div_iff₀ hd' (by norm_num)] at h
      exact_mod_cast (by linarith : 2 * ((n % d : Nat) : ℝ) < d)
    simp [nearestEven, this.ne, this.le]

/-! ### The integer square root (R165) -/

theorem sqrtBits_bounds {n i s : Nat} (hlow : s * s ≤ n) (hhigh : n < (s + 2 ^ i) * (s + 2 ^ i)) :
    sqrtBits n i s * sqrtBits n i s ≤ n ∧ n < (sqrtBits n i s + 1) * (sqrtBits n i s + 1) := by
  induction i generalizing s with
  | zero => exact ⟨hlow, hhigh⟩
  | succ i ih =>
    unfold sqrtBits
    split
    · refine ih ‹_› ?_
      rwa [Nat.add_assoc, ← Nat.mul_two, ← Nat.pow_succ]
    · exact ih hlow (Nat.lt_of_not_le ‹_›)

theorem floorSqrt_bounds (n : Nat) :
    floorSqrt n * floorSqrt n ≤ n ∧ n < (floorSqrt n + 1) * (floorSqrt n + 1) := by
  apply sqrtBits_bounds (Nat.zero_le n)
  rw [Nat.zero_add, ← Nat.pow_add]
  calc n < 2 ^ (n.log2 + 1) := Nat.lt_log2_self
    _ ≤ _ := Nat.pow_le_pow_right (by decide) (by omega)

theorem nearestInt_nearestEvenSqrt (n : Nat) {d : Nat} (hd : 0 < d) :
    NearestInt (nearestEvenSqrt n d) (Real.sqrt ((n : ℝ) / d)) := by
  have hd' : (0 : ℝ) < d := by exact_mod_cast hd
  obtain ⟨hlow, hhigh⟩ := floorSqrt_bounds (n / d)
  rw [Nat.le_div_iff_mul_le hd] at hlow
  rw [Nat.div_lt_iff_lt_mul hd] at hhigh
  generalize hk : floorSqrt (n / d) = k at *
  have hlow' : (k * k * d : ℝ) ≤ n := by exact_mod_cast hlow
  have hhigh' : (n : ℝ) < (k + 1) * (k + 1) * d := by exact_mod_cast hhigh
  have hhalf : (((k : ℝ) + 1 / 2) ^ 2) = (2 * k + 1) * (2 * k + 1) / 4 := by ring
  refine .of_floor (k := k) ⟨?_, ?_⟩ (fun h => ?above) (fun h => ?tie) (fun h => ?below)
  · apply Real.le_sqrt_of_sq_le
    rw [le_div_iff₀ hd', pow_two]
    exact hlow'
  · rw [Real.sqrt_lt' (by positivity), div_lt_iff₀ hd', pow_two]
    exact hhigh'
  case above =>
    have : d * ((2 * k + 1) * (2 * k + 1)) < 4 * n := by
      rw [Real.lt_sqrt (by positivity), hhalf, div_lt_div_iff₀ (by norm_num) hd'] at h
      exact_mod_cast (by linarith : (d * ((2 * k + 1) * (2 * k + 1)) : ℝ) < 4 * n)
    simp [nearestEvenSqrt, hk, this]
  case tie =>
    have : 4 * n = d * ((2 * k + 1) * (2 * k + 1)) := by
      rw [Real.sqrt_eq_iff_eq_sq (by positivity) (by positivity), hhalf, div_eq_div_iff hd'.ne' (by norm_num)] at h
      exact_mod_cast (by linarith : (4 * n : ℝ) = d * ((2 * k + 1) * (2 * k + 1)))
    simp [nearestEvenSqrt, hk, this]
  case below =>
    have : 4 * n < d * ((2 * k + 1) * (2 * k + 1)) := by
      rw [Real.sqrt_lt' (by positivity), hhalf, div_lt_div_iff₀ hd' (by norm_num)] at h
      exact_mod_cast (by linarith : (4 * n : ℝ) < d * ((2 * k + 1) * (2 * k + 1)))
    simp [nearestEvenSqrt, hk, this.ne, this.le]

/-! ### The binary logarithm (R153) -/

theorem two_zpow_eq_div (e : ℤ) : (2 : ℝ) ^ e = 2 ^ e.toNat / 2 ^ (-e).toNat := by
  obtain ⟨k, rfl | rfl⟩ := e.eq_nat_or_neg <;> simp

theorem two_zpow_le_div_iff (e : ℤ) (n : Nat) {d : Nat} (hd : 0 < d) :
    (2 : ℝ) ^ e ≤ n / d ↔ d * 2 ^ e.toNat ≤ n * 2 ^ (-e).toNat := by
  have hd' : (0 : ℝ) < d := by exact_mod_cast hd
  rw [two_zpow_eq_div, div_le_div_iff₀ (by positivity) hd', mul_comm, ← Nat.cast_le (α := ℝ)]
  push_cast
  rfl

theorem floorLog2_bounds {n d : Nat} (hn : 0 < n) (hd : 0 < d) :
    (2 : ℝ) ^ floorLog2 n d ≤ n / d ∧ (n / d : ℝ) < 2 ^ (floorLog2 n d + 1) := by
  have hd' : (0 : ℝ) < d := by exact_mod_cast hd
  have hn1 : (2 : ℝ) ^ (n.log2 : ℤ) ≤ n := by exact_mod_cast Nat.log2_self_le hn.ne'
  have hn2 : (n : ℝ) < 2 ^ ((n.log2 : ℤ) + 1) := by exact_mod_cast Nat.lt_log2_self (n := n)
  have hd1 : (2 : ℝ) ^ (d.log2 : ℤ) ≤ d := by exact_mod_cast Nat.log2_self_le hd.ne'
  have hd2 : (d : ℝ) < 2 ^ ((d.log2 : ℤ) + 1) := by exact_mod_cast Nat.lt_log2_self (n := d)
  have hiff := two_zpow_le_div_iff (n.log2 - d.log2 : ℤ) n hd
  unfold floorLog2
  generalize (n.log2 : ℤ) = a at *
  generalize (d.log2 : ℤ) = c at *
  have hupper : (n / d : ℝ) < 2 ^ (a - c + 1) := by
    rw [div_lt_iff₀ hd']
    calc (n : ℝ) < 2 ^ (a + 1) := hn2
      _ = 2 ^ (a - c + 1) * 2 ^ c := by rw [← zpow_add₀ (by norm_num)]; congr 1; ring
      _ ≤ _ := by gcongr
  have hlower : (2 : ℝ) ^ (a - c - 1) ≤ n / d := by
    rw [le_div_iff₀ hd']
    calc (2 : ℝ) ^ (a - c - 1) * d ≤ 2 ^ (a - c - 1) * 2 ^ (c + 1) := by gcongr
      _ = 2 ^ a := by rw [← zpow_add₀ (by norm_num)]; congr 1; ring
      _ ≤ n := hn1
  simp only
  split
  case isTrue h => exact ⟨hiff.mpr h, hupper⟩
  case isFalse h =>
    rw [sub_add_cancel]
    exact ⟨hlower, lt_of_not_ge fun hle => h (hiff.mp hle)⟩

/-! ### Nearest in a binade is nearest (R153) -/

/-- `q`, in steps of the least positive value, lies in binade `b`, the subnormals counted to the lowest. -/
structure Format.InBinade (f : Format) (b : Nat) (q : ℝ) : Prop where
  nonneg : 0 ≤ q
  low : b = 0 ∨ 2 ^ f.fracBits * 2 ^ b ≤ q
  high : q < 2 ^ (f.fracBits + 1) * 2 ^ b

/-- A value is a multiple of the spacing of binade `b`, or lies below it. -/
theorem Format.value_num_grid (f : Format) {w : Nat} (z : BitVec w) (b : Nat) :
    (2 ^ b : ℤ) ∣ (f.value z).num ∨ b ≠ 0 ∧ |(f.value z).num| < 2 ^ f.fracBits * 2 ^ b := by
  have habs : |(f.value z).num| = (f.steps z : ℤ) := by
    rw [f.value_num]
    split <;> simp
  rw [habs, ← dvd_abs, habs]
  obtain hle | hlt := le_or_gt b (f.lead z)
  · left
    have : 2 ^ b ∣ f.steps z := Dvd.dvd.mul_left (Nat.pow_dvd_pow 2 hle) _
    exact_mod_cast this
  · refine .inr ⟨by omega, ?_⟩
    have : f.steps z < 2 ^ f.fracBits * 2 ^ b :=
      calc f.steps z < 2 ^ (f.fracBits + 1) * 2 ^ f.lead z :=
            Nat.mul_lt_mul_of_pos_right (f.significand_lt z) (Nat.two_pow_pos _)
        _ = 2 ^ f.fracBits * 2 ^ (f.lead z + 1) := by ring
        _ ≤ 2 ^ f.fracBits * 2 ^ b := Nat.mul_le_mul_left _ (Nat.pow_le_pow_right (by decide) hlt)
    exact_mod_cast this

/-- The multiple of the spacing that is nearest to `q` is nearest among all multiples and all numbers below the binade. -/
theorem Format.InBinade.nearest {f : Format} {b k : Nat} {q : ℝ} (hb : f.InBinade b q) (hk : NearestInt k (q / 2 ^ b))
    {v : ℤ} (hv : (2 ^ b : ℤ) ∣ v ∨ b ≠ 0 ∧ v < 2 ^ f.fracBits * 2 ^ b) :
    |(k * 2 ^ b : ℝ) - q| ≤ |(v : ℝ) - q| ∧
    (v ≠ (k * 2 ^ b : ℤ) → |(k * 2 ^ b : ℝ) - q| = |(v : ℝ) - q| → k % 2 = 0) := by
  have hpos : (0 : ℝ) < 2 ^ b := by positivity
  have hscale (x : ℝ) : |x * 2 ^ b - q| = |x - q / 2 ^ b| * 2 ^ b := by
    rw [← abs_of_pos hpos, ← abs_mul, abs_of_pos hpos, sub_mul, div_mul_cancel₀ _ hpos.ne']
  obtain ⟨j, rfl⟩ | ⟨hb0, hbelow⟩ := hv
  · push_cast
    rw [mul_comm (2 ^ b : ℝ) j, hscale, hscale]
    refine ⟨mul_le_mul_of_nonneg_right (hk.dist_le_int j) hpos.le, fun hne heq => ?_⟩
    refine hk.even_of_dist_eq (j := j) ?_ (mul_right_cancel₀ hpos.ne' heq)
    rintro rfl
    exact hne (mul_comm _ _)
  · have hlow := hb.low.resolve_left hb0
    have hv : (v : ℝ) < 2 ^ f.fracBits * 2 ^ b := by exact_mod_cast hbelow
    have hbase := hk.dist_le_int (2 ^ f.fracBits)
    have hlt : |(k * 2 ^ b : ℝ) - q| < |(v : ℝ) - q| :=
      calc |(k * 2 ^ b : ℝ) - q| ≤ |(2 ^ f.fracBits * 2 ^ b : ℝ) - q| := by
            rw [hscale, hscale]
            push_cast at hbase
            exact mul_le_mul_of_nonneg_right hbase hpos.le
        _ = q - 2 ^ f.fracBits * 2 ^ b := by rw [abs_sub_comm, abs_of_nonneg (by linarith)]
        _ < q - v := by linarith
        _ ≤ |(v : ℝ) - q| := by rw [abs_sub_comm]; exact le_abs_self _
    exact ⟨hlt.le, fun _ h => absurd h hlt.ne⟩

theorem Format.InBinade.le_two_pow {f : Format} {b k : Nat} {q : ℝ} (hb : f.InBinade b q)
    (hk : NearestInt k (q / 2 ^ b)) : (b = 0 ∨ 2 ^ f.fracBits ≤ k) ∧ k ≤ 2 ^ (f.fracBits + 1) := by
  have hpos : (0 : ℝ) < 2 ^ b := by positivity
  obtain ⟨hbelow, habove⟩ := abs_le.mp hk.dist_le
  have hhigh := (div_lt_iff₀ hpos).mpr hb.high
  constructor
  · refine hb.low.imp_right fun hlow => ?_
    have := (le_div_iff₀ hpos).mpr hlow
    have hlt : ((2 ^ f.fracBits : Nat) : ℝ) < k + 1 := by push_cast; linarith
    exact Nat.lt_succ_iff.mp (by exact_mod_cast hlt)
  · have hlt : (k : ℝ) < (2 ^ (f.fracBits + 1) : Nat) + 1 := by push_cast; linarith
    exact Nat.lt_succ_iff.mp (by exact_mod_cast hlt)

/-! ### The nearest pattern -/

theorem Format.value_toReal (f : Format) {w : Nat} (x : BitVec w) :
    ((f.value x).toRat : ℝ) = ((f.value x).num : ℝ) / 2 ^ f.scale := by
  rw [f.value_toRat]
  push_cast
  rfl

/-- Bit 0 of a pattern is the parity of its magnitude bits. -/
theorem Format.Fits.getLsbD_zero {f : Format} {w : Nat} (hf : f.Fits w) {x : BitVec w} (h : f.bits x % 2 = 0) :
    x.getLsbD 0 = false := by
  have hdvd : 2 ∣ 2 ^ (f.expBits + f.fracBits) := dvd_pow_self 2 (by have := hf.fracBits_pos; omega)
  rw [f.bits_eq, Nat.mod_mod_of_dvd _ hdvd] at h
  simp [BitVec.getLsbD, Nat.testBit_zero, h]

theorem Format.Fits.encodeBits_mod_two {f : Format} {w : Nat} (hf : f.Fits w) (b k : Nat) :
    f.encodeBits b k % 2 = k % 2 := by
  obtain ⟨c, hc⟩ : 2 ∣ b * 2 ^ f.fracBits := Dvd.dvd.mul_left (dvd_pow_self 2 hf.fracBits_pos.ne') b
  rw [Format.encodeBits, hc, Nat.mul_add_mod]

/-- `v` with its sign changed when `neg` is set. -/
def signed (neg : Bool) (v : ℤ) : ℤ := if neg then -v else v

theorem signed_signed (neg : Bool) (v : ℤ) : signed neg (signed neg v) = v := by
  cases neg <;> simp [signed]

theorem abs_signed (neg : Bool) (v : ℤ) : |signed neg v| = |v| := by
  cases neg <;> simp [signed]

/-- The distance between a number of sign `neg` and a multiple of `c` is that between the number and the signed multiple. -/
theorem abs_div_sub_signed (neg : Bool) (v : ℤ) (q : ℝ) {c : ℝ} (hc : 0 < c) :
    |(v : ℝ) / c - (if neg then -(q / c) else q / c)| = |(signed neg v : ℝ) - q| / c := by
  rw [← abs_of_pos hc, ← abs_div, abs_of_pos hc, sub_div]
  cases neg
  · rfl
  · rw [← abs_neg]
    simp only [if_true, signed, Int.cast_neg, neg_div]
    congr 1
    ring

/-- The pattern of the nearest multiple of the spacing stands for that multiple. -/
theorem Format.InBinade.value_num_pack {f : Format} {w b k : Nat} {q : ℝ} (hb : f.InBinade b q) (hf : f.Fits w)
    (hk : NearestInt k (q / 2 ^ b)) (hfin : f.encodeBits b k < f.infBits) (neg : Bool) :
    (f.value (f.pack w neg (f.encodeBits b k))).num = signed neg (k * 2 ^ b) := by
  obtain ⟨hnormal, hcarry⟩ := hb.le_two_pow hk
  have hsteps := f.steps_of_bits (hf.bits_pack neg (hfin.trans f.infBits_lt)) hnormal hcarry
  rw [f.value_num, hf.sign_pack neg (hfin.trans f.infBits_lt), hsteps]
  push_cast
  rfl

/-- The nearest multiple of the spacing of the binade is the nearest pattern, where it is finite. -/
theorem Format.InBinade.isNearestEven_pack {f : Format} {w b k : Nat} {q : ℝ} (hb : f.InBinade b q) (hf : f.Fits w)
    (hk : NearestInt k (q / 2 ^ b)) (hfin : f.encodeBits b k < f.infBits) (neg : Bool) :
    f.IsNearestEven (f.pack w neg (f.encodeBits b k)) (if neg then -(q / 2 ^ f.scale) else q / 2 ^ f.scale) := by
  have hbits := hf.bits_pack neg (hfin.trans f.infBits_lt)
  have hnum := hb.value_num_pack hf hk hfin neg
  generalize f.pack w neg (f.encodeBits b k) = x at *
  have hpos : (0 : ℝ) < 2 ^ f.scale := by positivity
  refine ⟨(f.isFinite_iff_bits x).mpr (hbits ▸ hfin), fun z _ => ?_⟩
  have hgrid : (2 ^ b : ℤ) ∣ signed neg (f.value z).num ∨
      b ≠ 0 ∧ signed neg (f.value z).num < 2 ^ f.fracBits * 2 ^ b := by
    have h := f.value_num_grid z b
    rw [← abs_signed neg, ← dvd_abs, ← abs_signed neg, dvd_abs] at h
    exact h.imp_right fun ⟨hb0, hlt⟩ => ⟨hb0, (le_abs_self _).trans_lt hlt⟩
  obtain ⟨hle, htie⟩ := hb.nearest hk hgrid
  simp only [f.value_toReal, abs_div_sub_signed neg _ q hpos, hnum, signed_signed]
  push_cast
  refine ⟨div_le_div_of_nonneg_right hle hpos.le, fun hne heq => ?_⟩
  apply hf.getLsbD_zero
  rw [hbits, hf.encodeBits_mod_two]
  refine htie (fun h => hne ?_) ((div_left_inj' hpos.ne').mp heq)
  rw [f.value_toRat, f.value_toRat, hnum, ← h, signed_signed]

/-! ### Overflow (R153, R165) -/

theorem Format.overflow_eq (f : Format) :
    (f.overflow : ℝ) = 2 ^ (f.bias + 1) - 2 ^ (f.bias - f.fracBits - 1) := by
  rw [Format.overflow, Nat.cast_sub (Nat.pow_le_pow_right (by decide) (by omega))]
  push_cast
  rfl

/-- In steps the threshold lies half a spacing below the end of the highest binade. -/
theorem Format.Fits.overflow_steps {f : Format} {w : Nat} (hf : f.Fits w) :
    (f.overflow * 2 ^ f.scale : ℝ) = (2 ^ (f.fracBits + 1) - 1 / 2) * 2 ^ (2 * f.bias - 1) := by
  obtain ⟨d, hd⟩ := Nat.exists_eq_add_of_lt hf.fracBits_lt_bias
  have hscale : f.scale = 2 * f.fracBits + d := by
    rw [Format.scale]
    omega
  have hlow : f.bias - f.fracBits - 1 = d := by omega
  have htop : 2 * f.bias - 1 = 2 * f.fracBits + 2 * d + 1 := by omega
  rw [f.overflow_eq, hscale, hlow, htop, hd]
  ring

theorem Format.InBinade.le_top {f : Format} {w b : Nat} {q : ℝ} (hb : f.InBinade b q) (hf : f.Fits w)
    (hq : q < f.overflow * 2 ^ f.scale) : b ≤ 2 * f.bias - 1 := by
  by_contra hgt
  have hlow := hb.low.resolve_left (by omega)
  have hpow : (2 : ℝ) ^ (2 * f.bias - 1 + 1) ≤ 2 ^ b := pow_le_pow_right₀ (by norm_num) (by omega)
  rw [hf.overflow_steps] at hq
  have : (2 : ℝ) ^ f.fracBits * 2 ^ b < 2 ^ f.fracBits * 2 ^ (2 * f.bias - 1 + 1) :=
    calc (2 : ℝ) ^ f.fracBits * 2 ^ b ≤ q := hlow
      _ < (2 ^ (f.fracBits + 1) - 1 / 2) * 2 ^ (2 * f.bias - 1) := hq
      _ ≤ 2 ^ (f.fracBits + 1) * 2 ^ (2 * f.bias - 1) := by gcongr; linarith
      _ = 2 ^ f.fracBits * 2 ^ (2 * f.bias - 1 + 1) := by ring
  exact absurd (lt_of_mul_lt_mul_left this (by positivity)) hpow.not_gt

/-- Below the overflow threshold the nearest multiple of the spacing is finite. -/
theorem Format.InBinade.encodeBits_lt {f : Format} {w b k : Nat} {q : ℝ} (hb : f.InBinade b q) (hf : f.Fits w)
    (hk : NearestInt k (q / 2 ^ b)) (hq : q < f.overflow * 2 ^ f.scale) : f.encodeBits b k < f.infBits := by
  have hbias := hf.fracBits_lt_bias
  have hcarry := (hb.le_two_pow hk).2
  have htop : b + 1 ≤ 2 * f.bias := by have := hb.le_top hf hq; omega
  rw [Nat.pow_succ] at hcarry
  rw [Format.encodeBits, Format.infBits, hf.maxExp_eq]
  obtain hlt | heq := htop.lt_or_eq
  · calc b * 2 ^ f.fracBits + k ≤ (b + 2) * 2 ^ f.fracBits := by rw [Nat.add_mul]; omega
      _ < (2 * f.bias + 1) * 2 ^ f.fracBits := Nat.mul_lt_mul_of_pos_right (by omega) (Nat.two_pow_pos _)
  · have hk' : k < 2 ^ (f.fracBits + 1) := by
      have hq' : q / 2 ^ b < 2 ^ (f.fracBits + 1) - 1 / 2 := by
        rwa [div_lt_iff₀ (by positivity), show b = 2 * f.bias - 1 by omega, ← hf.overflow_steps]
      have hdist := (abs_le.mp hk.dist_le).2
      exact_mod_cast (by push_cast; linarith : (k : ℝ) < (2 ^ (f.fracBits + 1) : Nat))
    rw [Nat.pow_succ] at hk'
    calc b * 2 ^ f.fracBits + k < (b + 2) * 2 ^ f.fracBits := by rw [Nat.add_mul]; omega
      _ = (2 * f.bias + 1) * 2 ^ f.fracBits := by congr 1; omega

/-- The binade of a number between `2^l` and `2^(l + 1)` (R153). -/
theorem Format.Fits.inBinade {f : Format} {w : Nat} (hf : f.Fits w) {m : ℝ} {l : ℤ} (hlow : 2 ^ l ≤ m)
    (hhigh : m < 2 ^ (l + 1)) : f.InBinade (f.binade l) (m * 2 ^ f.scale) := by
  have hbias := hf.fracBits_lt_bias
  have hscale : (f.scale : ℤ) = f.bias + f.fracBits - 1 := by
    rw [Format.scale]
    omega
  have hm : 0 ≤ m := le_trans (by positivity) hlow
  have hup {n : ℤ} (h : l + 1 + f.scale ≤ n) : m * 2 ^ f.scale < 2 ^ n :=
    calc m * 2 ^ f.scale < 2 ^ (l + 1) * 2 ^ f.scale := by gcongr
      _ = 2 ^ (l + 1 + f.scale) := by rw [zpow_add₀ two_ne_zero (l + 1), zpow_natCast]
      _ ≤ 2 ^ n := zpow_le_zpow_right₀ (by norm_num) h
  refine ⟨by positivity, ?_, ?_⟩
  · obtain hle | hgt := le_or_gt (l + (f.bias - 1 : Nat)) 0
    · exact .inl (Int.toNat_eq_zero.mpr hle)
    · right
      have hbin : (f.binade l : ℤ) = l + (f.bias - 1 : Nat) := Int.toNat_of_nonneg hgt.le
      calc (2 : ℝ) ^ f.fracBits * 2 ^ f.binade l = 2 ^ l * 2 ^ f.scale := by
            rw [← pow_add, ← zpow_natCast, ← zpow_natCast (2 : ℝ) f.scale, ← zpow_add₀ (by norm_num)]
            congr 1
            push_cast
            omega
        _ ≤ m * 2 ^ f.scale := by gcongr
  · rw [← pow_add, ← zpow_natCast (2 : ℝ) (_ + f.binade l)]
    apply hup
    have hbin : l + (f.bias - 1 : Nat) ≤ f.binade l := Int.self_le_toNat _
    push_cast
    omega

/-! ### `round32` and `round64` (R153, R165) -/

theorem Frac.toReal (r : Frac) : (r.toRat : ℝ) = (r.num : ℝ) / r.den := by
  simp [Frac.toRat]

/-- A fraction is its magnitude with its sign. -/
theorem Frac.toReal_eq (r : Frac) :
    (r.toRat : ℝ) = if decide (r.num < 0) then -((r.num.natAbs : ℝ) / r.den) else (r.num.natAbs : ℝ) / r.den := by
  rw [r.toReal, Nat.cast_natAbs, Int.cast_abs]
  split
  case isTrue h =>
    rw [abs_of_neg (by exact_mod_cast of_decide_eq_true h), neg_div, neg_neg]
  case isFalse h =>
    rw [abs_of_nonneg (by exact_mod_cast not_lt.mp (by simpa using h))]

theorem Frac.abs_toReal (r : Frac) : |(r.toRat : ℝ)| = (r.num.natAbs : ℝ) / r.den := by
  rw [r.toReal, abs_div, Nat.cast_natAbs, Int.cast_abs, Nat.abs_cast]

/-- The threshold test of `Format.round` on rationals. -/
theorem Format.overflow_le_iff (f : Format) {r : Frac} (hden : 0 < r.den) :
    f.overflow * r.den ≤ r.num.natAbs ↔ (f.overflow : ℝ) ≤ |(r.toRat : ℝ)| := by
  have hden' : (0 : ℝ) < r.den := by exact_mod_cast hden
  rw [r.abs_toReal, le_div_iff₀ hden']
  exact_mod_cast Iff.rfl

/-- From the overflow threshold up, rounding gives infinity. -/
theorem Format.round_of_overflow (f : Format) (w : Nat) {r : Frac} (hden : 0 < r.den)
    (h : (f.overflow : ℝ) ≤ |(r.toRat : ℝ)|) : f.round w r = f.pack w (decide (r.num < 0)) f.infBits := by
  simp [Format.round, (f.overflow_le_iff hden).mpr h]

/-- `x` is finite, has the sign `neg` and, in the binade of the magnitude `m`, the multiple of the spacing nearest to `m`. -/
def Format.RoundsMagnitude (f : Format) {w : Nat} (x : BitVec w) (neg : Bool) (m : ℝ) : Prop :=
  ∃ b k, x = f.pack w neg (f.encodeBits b k) ∧ f.encodeBits b k < f.infBits ∧
    f.InBinade b (m * 2 ^ f.scale) ∧ NearestInt k (m * 2 ^ f.scale / 2 ^ b)

theorem Format.RoundsMagnitude.sign_eq {f : Format} {w : Nat} {x : BitVec w} {neg : Bool} {m : ℝ}
    (h : f.RoundsMagnitude x neg m) (hf : f.Fits w) : f.sign x = neg := by
  obtain ⟨b, k, rfl, hfin, -, -⟩ := h
  exact hf.sign_pack neg (hfin.trans f.infBits_lt)

theorem Format.RoundsMagnitude.isNearestEven {f : Format} {w : Nat} {x : BitVec w} {neg : Bool} {m : ℝ}
    (h : f.RoundsMagnitude x neg m) (hf : f.Fits w) : f.IsNearestEven x (if neg then -m else m) := by
  obtain ⟨b, k, rfl, hfin, hb, hk⟩ := h
  have hnearest := hb.isNearestEven_pack hf hk hfin neg
  rwa [mul_div_cancel_right₀ _ (by positivity)] at hnearest

theorem nearestInt_scaled (n : Nat) {d : Nat} (hd : 0 < d) (s b : Nat) :
    NearestInt (nearestEven (n * 2 ^ s) (d * 2 ^ b)) ((n : ℝ) / d * 2 ^ s / 2 ^ b) := by
  convert nearestInt_nearestEven (n * 2 ^ s) (Nat.mul_pos hd (Nat.two_pow_pos b)) using 1
  push_cast
  field_simp

/-- Below the overflow threshold, rounding packs the nearest multiple of the spacing of the number's binade. -/
theorem Format.Fits.roundsMagnitude_round {f : Format} {w : Nat} (hf : f.Fits w) {r : Frac} (hden : 0 < r.den)
    (hnum : r.num ≠ 0) (h : |(r.toRat : ℝ)| < f.overflow) :
    f.RoundsMagnitude (f.round w r) (decide (r.num < 0)) |(r.toRat : ℝ)| := by
  have hover : ¬f.overflow * r.den ≤ r.num.natAbs := (f.overflow_le_iff hden).not.mpr h.not_ge
  rw [r.abs_toReal] at h ⊢
  obtain ⟨hlow, hhigh⟩ := floorLog2_bounds (Int.natAbs_pos.mpr hnum) hden
  have hb := hf.inBinade hlow hhigh
  have hk := nearestInt_scaled r.num.natAbs hden f.scale (f.binade (floorLog2 r.num.natAbs r.den))
  refine ⟨_, _, ?_, hb.encodeBits_lt hf hk (mul_lt_mul_of_pos_right h (by positivity)), hb, hk⟩
  simp only [Format.round, hover, if_false]

/-- Below the overflow threshold `round` is the nearest pattern, the even one at a tie. -/
theorem Format.Fits.isNearestEven_round {f : Format} {w : Nat} (hf : f.Fits w) {r : Frac} (hden : 0 < r.den)
    (hnum : r.num ≠ 0) (h : |(r.toRat : ℝ)| < f.overflow) : f.IsNearestEven (f.round w r) (r.toRat : ℝ) := by
  rw [r.toReal_eq, ← r.abs_toReal]
  exact (hf.roundsMagnitude_round hden hnum h).isNearestEven hf

/-- `round` keeps the sign. -/
theorem Format.Fits.sign_round {f : Format} {w : Nat} (hf : f.Fits w) {r : Frac} (hden : 0 < r.den) (hnum : r.num ≠ 0) :
    f.sign (f.round w r) = decide (r.num < 0) := by
  obtain h | h := lt_or_ge |(r.toRat : ℝ)| f.overflow
  · exact (hf.roundsMagnitude_round hden hnum h).sign_eq hf
  · rw [f.round_of_overflow w hden h, hf.sign_pack _ f.infBits_lt]

theorem infOf_eq_pack (s : Bool) : infOf s = binary32.pack 32 s binary32.infBits := by
  cases s <;> rfl

theorem inf64Of_eq_pack (s : Bool) : inf64Of s = binary64.pack 64 s binary64.infBits := by
  cases s <;> rfl

theorem binary32_overflow : ((binary32.overflow : Nat) : ℝ) = 2 ^ 128 - 2 ^ 103 := binary32.overflow_eq

theorem binary64_overflow : ((binary64.overflow : Nat) : ℝ) = 2 ^ 1024 - 2 ^ 970 := binary64.overflow_eq

/-- Settles O26: the rounding of every format, at binary32. -/
theorem roundingIsNearestEven : Obligations.RoundingIsNearestEven := by
  unfold Obligations.RoundingIsNearestEven
  intro r hden hnum
  have hcast : (|r.toRat| : ℚ) < 2 ^ 128 - 2 ^ 103 ↔ |(r.toRat : ℝ)| < binary32.overflow := by
    rw [binary32_overflow]
    exact_mod_cast Iff.rfl
  refine ⟨binary32_fits.sign_round hden hnum, fun h => ?finite, fun h => ?overflow⟩
  case finite =>
    obtain ⟨hfin, hnearest⟩ := binary32_fits.isNearestEven_round hden hnum (hcast.mp h)
    exact ⟨hfin, fun z hz => by exact_mod_cast hnearest z hz⟩
  case overflow =>
    rw [infOf_eq_pack]
    exact binary32.round_of_overflow 32 hden (not_lt.mp fun hlt => h.not_gt (hcast.mpr hlt))

end Sys2Proof.Machine
end

section
/-! Proofs of the statements about the binary32 primitives (spec/42_arithmetic.md R150-R164). Each primitive's answer is said once
per case of its operands; the order of values is the order of sign and magnitude bits. -/

namespace Sys2Proof.Machine

/-! ### Infinities, zeros and the sign bit (R150) -/

theorem isNaN_isInf_of_isFinite {x : Word} (h : isFinite x = true) : isNaN x = false ∧ isInf x = false :=
  (binary32.isFinite_iff x).mp h

theorem value_den_pos (x : Word) : 0 < (value x).den := binary32.value_den_pos x

theorem eq_infOf_of_isInf {x : Word} (h : isInf x = true) : x = infOf (sign x) := by
  rw [infOf_eq_pack]
  apply binary32_fits.ext
  · exact (binary32_fits.sign_pack _ binary32.infBits_lt).symm
  · rw [binary32_fits.bits_pack _ binary32.infBits_lt]
    exact (binary32.isInf_iff x).mp h

theorem eq_zeroOf_of_isZero {x : Word} (h : isZero x = true) : x = zeroOf (sign x) := by
  have hbits : binary32.bits x = 0 := (binary32.isZero_iff x).mp h
  apply binary32_fits.ext
  · cases hs : sign x <;> exact hs
  · rw [hbits]
    cases sign x <;> decide

theorem sign_infOf (s : Bool) : sign (infOf s) = s := by cases s <;> decide

theorem sign_zeroOf (s : Bool) : sign (zeroOf s) = s := by cases s <;> decide

theorem sign_negate (x : Word) : sign (x ^^^ 0x80000000#32) = !sign x := by
  simp [sign, Format.sign, binary32]

theorem exponent_negate (x : Word) : binary32.exponent (x ^^^ 0x80000000#32) = binary32.exponent x := by
  simp [Format.exponent, binary32, BitVec.extractLsb'_xor]

theorem fraction_negate (x : Word) : binary32.fraction (x ^^^ 0x80000000#32) = binary32.fraction x := by
  simp [Format.fraction, binary32, BitVec.extractLsb'_xor]

theorem isNaN_negate (x : Word) : isNaN (x ^^^ 0x80000000#32) = isNaN x := by
  simp only [isNaN, Format.isNaN, exponent_negate, fraction_negate]

theorem isInf_negate (x : Word) : isInf (x ^^^ 0x80000000#32) = isInf x := by
  simp only [isInf, Format.isInf, exponent_negate, fraction_negate]

theorem isZero_negate (x : Word) : isZero (x ^^^ 0x80000000#32) = isZero x := by
  simp only [isZero, Format.isZero, exponent_negate, fraction_negate]

theorem isFinite_negate (x : Word) : isFinite (x ^^^ 0x80000000#32) = isFinite x := by
  simp only [isFinite, isNaN_negate, isInf_negate]

theorem value_num_negate (x : Word) : (value (x ^^^ 0x80000000#32)).num = -(value x).num := by
  have hsteps : binary32.steps (x ^^^ 0x80000000#32) = binary32.steps x :=
    binary32.steps_eq_of_bits_eq (by simp only [Format.bits, exponent_negate, fraction_negate])
  have hsign : binary32.sign (x ^^^ 0x80000000#32) = !binary32.sign x := sign_negate x
  rw [value, value, binary32.value_num, binary32.value_num, hsteps, hsign]
  cases binary32.sign x <;> simp

theorem value_toRat_negate (x : Word) : (value (x ^^^ 0x80000000#32)).toRat = -(value x).toRat := by
  have hnum := value_num_negate x
  rw [value, value] at hnum ⊢
  rw [binary32.value_toRat, binary32.value_toRat, hnum, Int.cast_neg, neg_div]

/-! ### NaN operands (R151, R157, R158) -/

theorem getLsbD_quiet (x : Word) (i : Nat) : (quiet x).getLsbD i = (x.getLsbD i || decide (i = 22)) := by
  have hbit : (0x00400000#32).getLsbD i = decide (i = 22) := by
    rw [show 0x00400000#32 = BitVec.twoPow 32 22 from rfl, BitVec.getLsbD_twoPow]
    grind
  rw [quiet, BitVec.getLsbD_or, hbit]

theorem isNaN_quiet {x : Word} (h : isNaN x = true) : isNaN (quiet x) = true := by
  have hexp : binary32.exponent (quiet x) = binary32.exponent x := by
    simp [Format.exponent, binary32, quiet, BitVec.extractLsb'_or]
  have hbit : (quiet x)[22] = true := by rw [← BitVec.getLsbD_eq_getElem, getLsbD_quiet]; simp
  have hfrac : binary32.fraction (quiet x) ≠ 0 := by
    intro hzero
    have hextract : (quiet x).extractLsb' 0 23 = 0#23 := BitVec.eq_of_toNat_eq hzero
    have hbit' := congrArg (fun y => BitVec.getLsbD y 22) hextract
    simp [hbit] at hbit'
  simp only [isNaN, Format.isNaN, Bool.and_eq_true, beq_iff_eq, bne_iff_ne] at h ⊢
  exact ⟨hexp.trans h.1, hfrac⟩

/-- Settles O27: the first two guards of each primitive, and the one bit that `quiet` sets. -/
theorem nanPropagation : Obligations.NanPropagation := by
  unfold Obligations.NanPropagation
  intro f hf a b
  refine ⟨fun ha => ?first, fun ha hb => ?second, fun i hi => ?_, ?_⟩
  case first =>
    obtain rfl | rfl | rfl | rfl : f = f32Add ∨ f = f32Sub ∨ f = f32Mul ∨ f = f32Div := by simpa using hf
    · simp [f32Add, ha]
    · simp [f32Sub, ha]
    · simp [f32Mul, ha]
    · simp [f32Div, ha]
  case second =>
    obtain rfl | rfl | rfl | rfl : f = f32Add ∨ f = f32Sub ∨ f = f32Mul ∨ f = f32Div := by simpa using hf
    · simp [f32Add, ha, hb]
    · simp [f32Sub, ha, hb]
    · simp [f32Mul, ha, hb]
    · simp [f32Div, ha, hb]
  · simp [getLsbD_quiet, hi]
  · simp [getLsbD_quiet]

/-! ### The sum (R159) -/

theorem f32Add_of_opposite_infinities {a b : Word} (ha : isInf a = true) (hb : isInf b = true) (hs : sign a ≠ sign b) :
    f32Add a b = defaultNaN := by
  simp [f32Add, isNaN_isZero_of_isInf ha, isNaN_isZero_of_isInf hb, ha, hb, hs]

theorem f32Add_of_isInf_left {a b : Word} (ha : isInf a = true) (hb : isNaN b = false)
    (hs : isInf b = true → sign a = sign b) : f32Add a b = a := by
  have hsame : (isInf b && (sign a != sign b)) = false := by
    cases h : isInf b
    · rfl
    · simp [hs h]
  simp only [f32Add, isNaN_isZero_of_isInf ha, hb, ha, hsame, Bool.true_and, Bool.false_eq_true, if_true, if_false]

theorem f32Add_of_isInf_right {a b : Word} (ha : isFinite a = true) (hb : isInf b = true) : f32Add a b = b := by
  obtain ⟨hnan, hinf⟩ := isNaN_isInf_of_isFinite ha
  simp [f32Add, hnan, hinf, isNaN_isZero_of_isInf hb, hb]

/-- Finite operands: the exact sum, rounded unless it is zero. -/
theorem f32Add_of_finite {a b : Word} (ha : isFinite a = true) (hb : isFinite b = true) :
    f32Add a b = if ((value a).add (value b)).num = 0 then
      (if isZero a && isZero b && (sign a == sign b) then a else 0x00000000#32) else round32 ((value a).add (value b)) := by
  obtain ⟨hnanA, hinfA⟩ := isNaN_isInf_of_isFinite ha
  obtain ⟨hnanB, hinfB⟩ := isNaN_isInf_of_isFinite hb
  simp [f32Add, hnanA, hinfA, hnanB, hinfB]

theorem value_add_num_eq_zero (a b : Word) :
    ((value a).add (value b)).num = 0 ↔ (value a).toRat + (value b).toRat = 0 := by
  rw [← Frac.toRat_add (value_den_pos a) (value_den_pos b),
    Frac.toRat_eq_zero (Frac.den_add (value_den_pos a) (value_den_pos b))]

theorem f32Add_roundsTo {a b : Word} (ha : isFinite a = true) (hb : isFinite b = true)
    (h : (value a).toRat + (value b).toRat ≠ 0) : RoundsTo (f32Add a b) ((value a).toRat + (value b).toRat) := by
  refine ⟨_, Frac.den_add (value_den_pos a) (value_den_pos b), Frac.toRat_add (value_den_pos a) (value_den_pos b), ?_⟩
  rw [f32Add_of_finite ha hb, if_neg ((value_add_num_eq_zero a b).not.mpr h)]

theorem f32Add_of_sum_zero {a b : Word} (ha : isFinite a = true) (hb : isFinite b = true)
    (h : (value a).toRat + (value b).toRat = 0) :
    f32Add a b = if isZero a && isZero b && (sign a == sign b) then a else 0x00000000#32 := by
  rw [f32Add_of_finite ha hb, if_pos ((value_add_num_eq_zero a b).mpr h)]

theorem Frac.add_comm (r s : Frac) : r.add s = s.add r := by
  simp only [Frac.add, Frac.mk.injEq]
  exact ⟨by ring, by ring⟩

theorem isFinite_of_not_inf {x : Word} (hnan : isNaN x = false) (hinf : isInf x = false) : isFinite x = true := by
  simp [isFinite, hnan, hinf]

theorem f32Add_comm_of_finite {a b : Word} (ha : isFinite a = true) (hb : isFinite b = true) :
    f32Add a b = f32Add b a := by
  rw [f32Add_of_finite ha hb, f32Add_of_finite hb ha, Frac.add_comm (value b)]
  by_cases hzeros : isZero a = true ∧ isZero b = true ∧ sign a = sign b
  · obtain ⟨hza, hzb, hs⟩ := hzeros
    rw [eq_zeroOf_of_isZero hza, eq_zeroOf_of_isZero hzb, hs]
  · have hba : ¬(isZero b = true ∧ isZero a = true ∧ sign b = sign a) :=
      fun ⟨hzb, hza, hs⟩ => hzeros ⟨hza, hzb, hs.symm⟩
    simp only [Bool.and_eq_true, beq_iff_eq, and_assoc, hzeros, hba, if_false]

theorem f32Add_comm {a b : Word} (ha : isNaN a = false) (hb : isNaN b = false) : f32Add a b = f32Add b a := by
  cases hinfA : isInf a <;> cases hinfB : isInf b
  case false.false => exact f32Add_comm_of_finite (isFinite_of_not_inf ha hinfA) (isFinite_of_not_inf hb hinfB)
  case false.true =>
    rw [f32Add_of_isInf_right (isFinite_of_not_inf ha hinfA) hinfB, f32Add_of_isInf_left hinfB ha (by simp [hinfA])]
  case true.false =>
    rw [f32Add_of_isInf_right (isFinite_of_not_inf hb hinfB) hinfA, f32Add_of_isInf_left hinfA hb (by simp [hinfB])]
  case true.true =>
    by_cases hs : sign a = sign b
    · rw [eq_infOf_of_isInf hinfA, eq_infOf_of_isInf hinfB, hs]
    · rw [f32Add_of_opposite_infinities hinfA hinfB hs, f32Add_of_opposite_infinities hinfB hinfA (Ne.symm hs)]

/-- Settles O29: the cases of `f32Add`, and its symmetry. -/
theorem sumIsRoundedOnce : Obligations.SumIsRoundedOnce := by
  unfold Obligations.SumIsRoundedOnce
  intro a b
  exact ⟨fun ha hb => ⟨f32Add_roundsTo ha hb, f32Add_of_sum_zero ha hb⟩, f32Add_of_isInf_left, f32Add_comm⟩

/-! ### The difference (R160) -/

/-- A difference of operands that are no NaN is the sum with the subtrahend's sign bit flipped. -/
theorem f32Sub_eq_f32Add {a b : Word} (ha : isNaN a = false) (hb : isNaN b = false) :
    f32Sub a b = f32Add a (b ^^^ 0x80000000#32) := by
  simp [f32Sub, ha, hb]

theorem f32Sub_roundsTo {a b : Word} (ha : isFinite a = true) (hb : isFinite b = true)
    (h : (value a).toRat - (value b).toRat ≠ 0) : RoundsTo (f32Sub a b) ((value a).toRat - (value b).toRat) := by
  rw [sub_eq_add_neg, ← value_toRat_negate] at h ⊢
  rw [f32Sub_eq_f32Add (isNaN_isInf_of_isFinite ha).1 (isNaN_isInf_of_isFinite hb).1]
  exact f32Add_roundsTo ha ((isFinite_negate b).trans hb) h

theorem f32Sub_of_difference_zero {a b : Word} (ha : isFinite a = true) (hb : isFinite b = true)
    (h : (value a).toRat - (value b).toRat = 0) :
    f32Sub a b = if isZero a && isZero b && (sign a != sign b) then a else 0x00000000#32 := by
  rw [sub_eq_add_neg, ← value_toRat_negate] at h
  have hs : (sign a == !sign b) = (sign a != sign b) := by cases sign a <;> cases sign b <;> rfl
  rw [f32Sub_eq_f32Add (isNaN_isInf_of_isFinite ha).1 (isNaN_isInf_of_isFinite hb).1,
    f32Add_of_sum_zero ha ((isFinite_negate b).trans hb) h, isZero_negate, sign_negate, hs]

theorem f32Sub_of_isInf_left {a b : Word} (ha : isInf a = true) (hb : isNaN b = false)
    (hs : isInf b = true → sign a ≠ sign b) : f32Sub a b = a := by
  rw [f32Sub_eq_f32Add (isNaN_isZero_of_isInf ha).1 hb]
  refine f32Add_of_isInf_left ha ((isNaN_negate b).trans hb) fun hinf => ?_
  rw [sign_negate]
  exact Bool.eq_not.mpr (hs ((isInf_negate b).symm.trans hinf))

theorem f32Sub_of_isInf_right {a b : Word} (ha : isFinite a = true) (hb : isInf b = true) :
    f32Sub a b = infOf (!sign b) := by
  have hinf : isInf (b ^^^ 0x80000000#32) = true := (isInf_negate b).trans hb
  rw [f32Sub_eq_f32Add (isNaN_isInf_of_isFinite ha).1 (isNaN_isZero_of_isInf hb).1, f32Add_of_isInf_right ha hinf,
    ← sign_negate]
  exact eq_infOf_of_isInf hinf

theorem f32Sub_self {a : Word} (ha : isFinite a = true) : f32Sub a a = 0x00000000#32 := by
  simp [f32Sub_of_difference_zero ha ha (sub_self _)]

/-- Settles O30: the cases of `f32Sub`, each from the sum with the subtrahend negated. -/
theorem differenceIsRoundedOnce : Obligations.DifferenceIsRoundedOnce := by
  unfold Obligations.DifferenceIsRoundedOnce
  refine ⟨fun a b => ⟨fun ha hb => ⟨f32Sub_roundsTo ha hb, f32Sub_of_difference_zero ha hb⟩, f32Sub_of_isInf_left,
    f32Sub_of_isInf_right⟩, fun a => f32Sub_self, f32Sub_self (by decide), by decide⟩

/-! ### The product and the quotient (R161, R162) -/

theorem f32Mul_of_finite {a b : Word} (ha : isFinite a = true) (hb : isFinite b = true) :
    f32Mul a b = if ((value a).mul (value b)).num = 0 then zeroOf (sign a ^^ sign b)
      else round32 ((value a).mul (value b)) := by
  obtain ⟨hnanA, hinfA⟩ := isNaN_isInf_of_isFinite ha
  obtain ⟨hnanB, hinfB⟩ := isNaN_isInf_of_isFinite hb
  simp [f32Mul, hnanA, hinfA, hnanB, hinfB]

theorem f32Mul_of_isInf_left {a b : Word} (ha : isInf a = true) (hb : isNaN b = false) (hz : isZero b = false) :
    f32Mul a b = infOf (sign a ^^ sign b) := by
  simp [f32Mul, isNaN_isZero_of_isInf ha, hb, ha, hz]

theorem f32Mul_of_isInf_right {a b : Word} (ha : isNaN a = false) (hz : isZero a = false) (hb : isInf b = true) :
    f32Mul a b = infOf (sign a ^^ sign b) := by
  simp [f32Mul, isNaN_isZero_of_isInf hb, ha, hb, hz]

theorem f32Div_of_finite {a b : Word} (ha : isFinite a = true) (hb : isFinite b = true)
    (hzeros : isZero a = false ∨ isZero b = false) :
    f32Div a b = if isZero b then infOf (sign a ^^ sign b) else if isZero a then zeroOf (sign a ^^ sign b)
      else round32 ((value a).div (value b)) := by
  obtain ⟨hnanA, hinfA⟩ := isNaN_isInf_of_isFinite ha
  obtain ⟨hnanB, hinfB⟩ := isNaN_isInf_of_isFinite hb
  have hnot : (isZero a && isZero b) = false := by obtain h | h := hzeros <;> simp [h]
  simp [f32Div, hnanA, hinfA, hnanB, hinfB, hnot]

theorem f32Div_of_isInf_left {a b : Word} (ha : isInf a = true) (hb : isFinite b = true) :
    f32Div a b = infOf (sign a ^^ sign b) := by
  simp [f32Div, isNaN_isZero_of_isInf ha, isNaN_isInf_of_isFinite hb, ha]

theorem f32Div_of_isInf_right {a b : Word} (ha : isFinite a = true) (hb : isInf b = true) :
    f32Div a b = zeroOf (sign a ^^ sign b) := by
  simp [f32Div, isNaN_isInf_of_isFinite ha, isNaN_isZero_of_isInf hb, hb]

theorem value_toRat_eq_zero (x : Word) : (value x).toRat = 0 ↔ isZero x = true := binary32.value_toRat_eq_zero x

theorem value_num_eq_zero (x : Word) : (value x).num = 0 ↔ isZero x = true := binary32.value_num_eq_zero x

/-- The sign of a nonzero value's numerator is the sign bit. -/
theorem value_num_neg {x : Word} (h : (value x).num ≠ 0) : (value x).num < 0 ↔ sign x = true := by
  have hzero : binary32.isZero x = false := Bool.eq_false_iff.mpr ((value_num_eq_zero x).not.mp h)
  exact (binary32.value_num_neg x).trans (and_iff_left hzero)

theorem sign_round32 {r : Frac} (hden : 0 < r.den) (hnum : r.num ≠ 0) : sign (round32 r) = decide (r.num < 0) :=
  binary32_fits.sign_round hden hnum

theorem decide_value_num_neg {x : Word} (h : (value x).num ≠ 0) : decide ((value x).num < 0) = sign x := by
  rw [Bool.eq_iff_iff, decide_eq_true_iff, value_num_neg h]

/-- A product of nonzero integers is negative when just one of them is. -/
theorem decide_mul_neg {u v : ℤ} (hu : u ≠ 0) (hv : v ≠ 0) :
    decide (u * v < 0) = (decide (u < 0) ^^ decide (v < 0)) := by
  obtain hu | hu := lt_or_gt_of_ne hu <;> obtain hv | hv := lt_or_gt_of_ne hv
  · rw [decide_eq_false (mul_pos_of_neg_of_neg hu hv).not_gt, decide_eq_true hu, decide_eq_true hv, Bool.xor_self]
  · rw [decide_eq_true (mul_neg_of_neg_of_pos hu hv), decide_eq_true hu, decide_eq_false hv.not_gt, Bool.xor_false]
  · rw [decide_eq_true (mul_neg_of_pos_of_neg hu hv), decide_eq_false hu.not_gt, decide_eq_true hv, Bool.false_xor]
  · rw [decide_eq_false (mul_pos hu hv).not_gt, decide_eq_false hu.not_gt, decide_eq_false hv.not_gt, Bool.xor_self]

theorem sign_round32_mul {a b : Word} (h : ((value a).mul (value b)).num ≠ 0) :
    sign (round32 ((value a).mul (value b))) = (sign a ^^ sign b) := by
  obtain ⟨ha, hb⟩ := mul_ne_zero_iff.mp h
  have hsign := decide_mul_neg ha hb
  rw [decide_value_num_neg ha, decide_value_num_neg hb] at hsign
  exact (sign_round32 (Frac.den_mul (value_den_pos a) (value_den_pos b)) h).trans hsign

theorem sign_round32_div {a b : Word} (ha : (value a).num ≠ 0) (hb : (value b).num ≠ 0) :
    sign (round32 ((value a).div (value b))) = (sign a ^^ sign b) := by
  have hden : 0 < ((value b).den : ℤ) := by exact_mod_cast value_den_pos b
  have hnum : (value a).num * (value b).den ≠ 0 := mul_ne_zero ha hden.ne'
  have hunit : (value b).num.sign ≠ 0 := mt Int.sign_eq_zero_iff_zero.mp hb
  have hsign := decide_mul_neg hnum hunit
  rw [decide_mul_neg ha hden.ne', decide_value_num_neg ha, decide_eq_false hden.le.not_gt, Bool.xor_false] at hsign
  simp only [Int.sign_neg_iff, decide_value_num_neg hb] at hsign
  exact (sign_round32 (Frac.den_div (value_den_pos a) hb) (mul_ne_zero hnum hunit)).trans hsign

theorem isNaN_defaultNaN : isNaN defaultNaN = true := by decide

theorem sign_f32Mul {a b : Word} (h : isNaN (f32Mul a b) = false) : sign (f32Mul a b) = (sign a ^^ sign b) := by
  unfold f32Mul at h ⊢
  dsimp only at h ⊢
  split_ifs at h ⊢ with ha hb hinvalid hinf hzero
  · simp [isNaN_quiet ha] at h
  · simp [isNaN_quiet hb] at h
  · simp [isNaN_defaultNaN] at h
  · exact sign_infOf _
  · exact sign_zeroOf _
  · exact sign_round32_mul hzero

theorem sign_f32Div {a b : Word} (h : isNaN (f32Div a b) = false) : sign (f32Div a b) = (sign a ^^ sign b) := by
  unfold f32Div at h ⊢
  dsimp only at h ⊢
  split_ifs at h ⊢ with ha hb hinvalid hinfA hinfB hzeroB hzeroA
  · simp [isNaN_quiet ha] at h
  · simp [isNaN_quiet hb] at h
  · simp [isNaN_defaultNaN] at h
  · exact sign_infOf _
  · exact sign_zeroOf _
  · exact sign_infOf _
  · exact sign_zeroOf _
  · exact sign_round32_div ((value_num_eq_zero a).not.mpr hzeroA) ((value_num_eq_zero b).not.mpr hzeroB)

theorem value_mul_num_eq_zero (a b : Word) :
    ((value a).mul (value b)).num = 0 ↔ (value a).toRat * (value b).toRat = 0 := by
  rw [← Frac.toRat_mul, Frac.toRat_eq_zero (Frac.den_mul (value_den_pos a) (value_den_pos b))]

theorem f32Mul_roundsTo {a b : Word} (ha : isFinite a = true) (hb : isFinite b = true)
    (h : (value a).toRat * (value b).toRat ≠ 0) : RoundsTo (f32Mul a b) ((value a).toRat * (value b).toRat) := by
  refine ⟨_, Frac.den_mul (value_den_pos a) (value_den_pos b), Frac.toRat_mul _ _, ?_⟩
  rw [f32Mul_of_finite ha hb, if_neg ((value_mul_num_eq_zero a b).not.mpr h)]

theorem f32Mul_of_product_zero {a b : Word} (ha : isFinite a = true) (hb : isFinite b = true)
    (h : (value a).toRat * (value b).toRat = 0) : f32Mul a b = zeroOf (sign a ^^ sign b) := by
  rw [f32Mul_of_finite ha hb, if_pos ((value_mul_num_eq_zero a b).mpr h)]

theorem f32Div_roundsTo {a b : Word} (ha : isFinite a = true) (hb : isFinite b = true) (hza : (value a).toRat ≠ 0)
    (hzb : (value b).toRat ≠ 0) : RoundsTo (f32Div a b) ((value a).toRat / (value b).toRat) := by
  rw [ne_eq, value_toRat_eq_zero, Bool.not_eq_true] at hza hzb
  have hnum : (value b).num ≠ 0 := (value_num_eq_zero b).not.mpr (by simp [hzb])
  refine ⟨_, Frac.den_div (value_den_pos a) hnum, Frac.toRat_div hnum, ?_⟩
  simp [f32Div_of_finite ha hb (.inl hza), hza, hzb]

theorem f32Div_by_zero {a b : Word} (ha : isFinite a = true) (hb : isFinite b = true) (hza : (value a).toRat ≠ 0)
    (hzb : (value b).toRat = 0) : f32Div a b = infOf (sign a ^^ sign b) := by
  rw [ne_eq, value_toRat_eq_zero, Bool.not_eq_true] at hza
  simp [f32Div_of_finite ha hb (.inl hza), (value_toRat_eq_zero b).mp hzb]

theorem f32Div_of_zero {a b : Word} (ha : isFinite a = true) (hb : isFinite b = true) (hza : (value a).toRat = 0)
    (hzb : (value b).toRat ≠ 0) : f32Div a b = zeroOf (sign a ^^ sign b) := by
  rw [ne_eq, value_toRat_eq_zero, Bool.not_eq_true] at hzb
  simp [f32Div_of_finite ha hb (.inr hzb), (value_toRat_eq_zero a).mp hza, hzb]

/-- Settles O31: the cases of `f32Mul` and `f32Div`, and the sign each of them gives. -/
theorem productAndQuotientAreRoundedOnce : Obligations.ProductAndQuotientAreRoundedOnce := by
  unfold Obligations.ProductAndQuotientAreRoundedOnce
  intro a b
  refine ⟨fun ha hb => ⟨f32Mul_roundsTo ha hb, f32Mul_of_product_zero ha hb, f32Div_roundsTo ha hb, f32Div_by_zero ha hb,
    f32Div_of_zero ha hb⟩, fun ha hb hz => ⟨f32Mul_of_isInf_left ha hb hz, ?_⟩, f32Div_of_isInf_left,
    f32Div_of_isInf_right, sign_f32Mul, sign_f32Div⟩
  rw [f32Mul_of_isInf_right hb hz ha, Bool.xor_comm]

/-! ### The order of values (R163, R164) -/

theorem orderKey_eq (x : Word) : orderKey x = signed (sign x) (binary32.bits x) := by
  rw [binary32.bits_eq, orderKey, BitVec.extractLsb'_toNat, Nat.shiftRight_zero]
  rfl

theorem value_num_eq_signed (x : Word) : (value x).num = signed (sign x) (binary32.steps x) := rfl

theorem steps_eq_zero_iff (x : Word) : binary32.steps x = 0 ↔ binary32.bits x = 0 := by
  rw [← binary32.isZero_iff, ← binary32.value_num_eq_zero, binary32.value_num]
  split <;> simp

/-- Values are ordered as sign and magnitude bits are. -/
theorem value_num_lt_iff (a b : Word) : (value a).num < (value b).num ↔ orderKey a < orderKey b := by
  have hlt := binary32.steps_lt_iff a b
  have hgt := binary32.steps_lt_iff b a
  have hzeroA := steps_eq_zero_iff a
  have hzeroB := steps_eq_zero_iff b
  rw [value_num_eq_signed, value_num_eq_signed, orderKey_eq, orderKey_eq]
  cases sign a <;> cases sign b <;> simp only [signed, Bool.false_eq_true, if_true, if_false] <;> omega

theorem value_num_eq_iff (a b : Word) : (value a).num = (value b).num ↔ orderKey a = orderKey b := by
  have hlt := value_num_lt_iff a b
  have hgt := value_num_lt_iff b a
  omega

theorem lt_values_iff (a b : Word) : (value a).lt (value b) = true ↔ orderKey a < orderKey b := by
  have hden : 0 < ((2 ^ binary32.scale : Nat) : ℤ) := by exact_mod_cast Nat.two_pow_pos _
  rw [← value_num_lt_iff, Frac.lt, decide_eq_true_iff]
  exact mul_lt_mul_iff_left₀ hden

theorem eq_values_iff (a b : Word) : (value a).eq (value b) = true ↔ orderKey a = orderKey b := by
  have hden : ((2 ^ binary32.scale : Nat) : ℤ) ≠ 0 := by exact_mod_cast (Nat.two_pow_pos _).ne'
  rw [← value_num_eq_iff, Frac.eq, decide_eq_true_iff]
  exact mul_left_inj' hden

/-- The extended real of a pattern that is no NaN, and the place of its key between the keys of the infinities. -/
theorem extValue_cases {x : Word} (h : isNaN x = false) :
    (extValue x = .negInf ∧ orderKey x = -(binary32.infBits : ℤ)) ∨
    (extValue x = .posInf ∧ orderKey x = (binary32.infBits : ℤ)) ∨
    (extValue x = .finite (value x) ∧ -(binary32.infBits : ℤ) < orderKey x ∧ orderKey x < (binary32.infBits : ℤ)) := by
  rw [orderKey_eq]
  cases hinf : isInf x
  · have hbits := (binary32.isFinite_iff_bits x).mp (isFinite_of_not_inf h hinf)
    right; right
    rw [← abs_lt, abs_signed, Nat.abs_cast]
    exact ⟨by simp [extValue, hinf], by exact_mod_cast hbits⟩
  · have hbits := (binary32.isInf_iff x).mp hinf
    rw [hbits]
    cases hs : sign x <;> simp [extValue, hinf, hs, signed]

theorem infBits32_pos : 0 < binary32.infBits := by decide

theorem f32Lt_iff {a b : Word} (ha : isNaN a = false) (hb : isNaN b = false) :
    f32Lt a b = true ↔ orderKey a < orderKey b := by
  have hpos := infBits32_pos
  simp only [f32Lt, f32Unord, ha, hb, Bool.or_self, Bool.not_false, Bool.true_and]
  obtain ⟨hea, hka⟩ | ⟨hea, hka⟩ | ⟨hea, hka⟩ := extValue_cases ha <;>
    obtain ⟨heb, hkb⟩ | ⟨heb, hkb⟩ | ⟨heb, hkb⟩ := extValue_cases hb <;>
    rw [hea, heb]
  case inr.inr.inr.inr => exact lt_values_iff a b
  all_goals
    simp only [Ext.lt, Bool.false_eq_true, false_iff, true_iff]
    omega

theorem f32Eq_iff {a b : Word} (ha : isNaN a = false) (hb : isNaN b = false) :
    f32Eq a b = true ↔ orderKey a = orderKey b := by
  have hpos := infBits32_pos
  simp only [f32Eq, f32Unord, ha, hb, Bool.or_self, Bool.not_false, Bool.true_and]
  obtain ⟨hea, hka⟩ | ⟨hea, hka⟩ | ⟨hea, hka⟩ := extValue_cases ha <;>
    obtain ⟨heb, hkb⟩ | ⟨heb, hkb⟩ | ⟨heb, hkb⟩ := extValue_cases hb <;>
    rw [hea, heb]
  case inr.inr.inr.inr => exact eq_values_iff a b
  all_goals
    simp only [Ext.eq, Bool.false_eq_true, false_iff, true_iff]
    omega

theorem f32Le_iff {a b : Word} (ha : isNaN a = false) (hb : isNaN b = false) :
    f32Le a b = true ↔ orderKey a ≤ orderKey b := by
  have hor : f32Le a b = (f32Lt a b || f32Eq a b) := by
    simp only [f32Le, f32Lt, f32Eq, Bool.and_or_distrib_left]
  rw [hor, Bool.or_eq_true, f32Lt_iff ha hb, f32Eq_iff ha hb, le_iff_lt_or_eq]

/-- Settles O32: the keys of sign and magnitude bits stand in the order of the values. -/
theorem orderIsIntegerOrder : Obligations.OrderIsIntegerOrder := by
  unfold Obligations.OrderIsIntegerOrder
  intro a b ha hb
  refine ⟨?lt, ?eq, ?le⟩ <;> rw [Bool.eq_iff_iff, decide_eq_true_iff]
  case lt => exact f32Lt_iff ha hb
  case eq => exact f32Eq_iff ha hb
  case le => exact f32Le_iff ha hb

theorem f32Lt_of_isNaN {a b : Word} (h : isNaN a = true ∨ isNaN b = true) : f32Lt a b = false := by
  obtain h | h := h <;> simp [f32Lt, f32Unord, h]

theorem not_isNaN_of_f32Lt {a b : Word} (h : f32Lt a b = true) : isNaN a = false ∧ isNaN b = false := by
  simpa [f32Lt, f32Unord] using (Bool.and_eq_true_iff.mp h).1

theorem not_isNaN_of_f32Eq {a b : Word} (h : f32Eq a b = true) : isNaN a = false ∧ isNaN b = false := by
  simpa [f32Eq, f32Unord] using (Bool.and_eq_true_iff.mp h).1

theorem f32Lt_asymm {a b : Word} (h : f32Lt a b = true) : f32Lt b a = false := by
  obtain ⟨ha, hb⟩ := not_isNaN_of_f32Lt h
  rw [Bool.eq_false_iff, ne_eq, f32Lt_iff hb ha]
  exact ((f32Lt_iff ha hb).mp h).le.not_gt

theorem f32Lt_of_f32Eq {a b : Word} (h : f32Eq a b = true) : f32Lt a b = false ∧ f32Lt b a = false := by
  obtain ⟨ha, hb⟩ := not_isNaN_of_f32Eq h
  have hkey := (f32Eq_iff ha hb).mp h
  rw [Bool.eq_false_iff, Bool.eq_false_iff, ne_eq, ne_eq, f32Lt_iff ha hb, f32Lt_iff hb ha, hkey]
  exact ⟨lt_irrefl _, lt_irrefl _⟩

/-- Settles O33: min and max answer `a` only where the order is strict, and it is strict in one direction at most. -/
theorem minMaxSecondOperand : Obligations.MinMaxSecondOperand := by
  unfold Obligations.MinMaxSecondOperand
  intro a b
  refine ⟨fun h => ?nan, fun h => ?equal, fun h => ?less, fun h => ?greater, ite_self a, ite_self a⟩
  case nan => simp [f32Min, f32Max, f32Lt_of_isNaN h, f32Lt_of_isNaN h.symm]
  case equal => simp [f32Min, f32Max, f32Lt_of_f32Eq h]
  case less => simp [f32Min, f32Max, h, f32Lt_asymm h]
  case greater => simp [f32Min, f32Max, h, f32Lt_asymm h]

end Sys2Proof.Machine
end

section
/-! Proofs of the statements about the binary64 intermediate and the roots (spec/42_arithmetic.md R165, R166): widening has nothing
to round, the square root is rounded as the nearest multiple of a spacing is, and the special values follow their path. -/

namespace Sys2Proof.Machine

/-! ### Finite values are far below the overflow threshold -/

theorem Format.two_pow_bias_le_overflow (f : Format) : (2 : ℝ) ^ f.bias ≤ f.overflow := by
  have hpow : (2 : ℝ) ^ (f.bias - f.fracBits - 1) ≤ 2 ^ f.bias := pow_le_pow_right₀ (by norm_num) (by omega)
  have hsucc : (2 : ℝ) ^ (f.bias + 1) = 2 ^ f.bias + 2 ^ f.bias := by ring
  rw [f.overflow_eq, hsucc]
  linarith

theorem Format.abs_value (f : Format) {w : Nat} (x : BitVec w) :
    |((f.value x).toRat : ℝ)| = (f.steps x : ℝ) / 2 ^ f.scale := by
  rw [(f.value x).abs_toReal, f.value_num]
  have habs : (if f.sign x then -(f.steps x : ℤ) else (f.steps x : ℤ)).natAbs = f.steps x := by split <;> simp
  have hden : (f.value x).den = 2 ^ f.scale := rfl
  rw [habs, hden]
  push_cast
  rfl

theorem Format.Fits.abs_value_lt {f : Format} {w : Nat} (hf : f.Fits w) {x : BitVec w} (h : f.isFinite x = true) :
    |((f.value x).toRat : ℝ)| < 2 ^ (f.bias + 1) := by
  have hexp : f.exponent x < f.maxExp := by
    have hbits := (f.isFinite_iff_bits x).mp h
    exact lt_of_le_of_ne (f.exponent_le x) fun heq => hbits.not_ge ((f.exponent_eq_maxExp_iff x).mp heq)
  have hbias := hf.fracBits_lt_bias
  have hlead : f.lead x ≤ 2 * f.bias - 1 := by
    rw [hf.maxExp_eq] at hexp
    rw [Format.lead]
    omega
  have hsteps : f.steps x < 2 ^ (f.bias + 1) * 2 ^ f.scale :=
    calc f.steps x < 2 ^ (f.fracBits + 1) * 2 ^ f.lead x :=
          Nat.mul_lt_mul_of_pos_right (f.significand_lt x) (Nat.two_pow_pos _)
      _ ≤ 2 ^ (f.fracBits + 1) * 2 ^ (2 * f.bias - 1) := Nat.mul_le_mul_left _ (Nat.pow_le_pow_right (by decide) hlead)
      _ = 2 ^ (f.bias + 1) * 2 ^ f.scale := by
          rw [← Nat.pow_add, ← Nat.pow_add, Format.scale]
          congr 1
          omega
  rw [f.abs_value, div_lt_iff₀ (by positivity)]
  exact_mod_cast hsteps

/-! ### Rounding what needs no rounding -/

/-- A magnitude that is an integer of at most `fracBits + 1` bits times a power of two, in steps, is rounded to itself. -/
theorem Format.RoundsMagnitude.value_eq {f : Format} {w : Nat} {x : BitVec w} {neg : Bool} {m : ℝ}
    (h : f.RoundsMagnitude x neg m) (hf : f.Fits w) {n j : Nat} (hn : n < 2 ^ (f.fracBits + 1))
    (hm : m * 2 ^ f.scale = n * 2 ^ j) : ((f.value x).toRat : ℝ) = if neg then -m else m := by
  obtain ⟨b, k, rfl, hfin, hb, hk⟩ := h
  have hbj : b ≤ j := by
    obtain hb0 | hlow := hb.low
    · omega
    · rw [hm] at hlow
      have hlt : 2 ^ f.fracBits * 2 ^ b < 2 ^ f.fracBits * 2 ^ (j + 1) :=
        calc 2 ^ f.fracBits * 2 ^ b ≤ n * 2 ^ j := by exact_mod_cast hlow
          _ < 2 ^ (f.fracBits + 1) * 2 ^ j := Nat.mul_lt_mul_of_pos_right hn (Nat.two_pow_pos _)
          _ = 2 ^ f.fracBits * 2 ^ (j + 1) := by ring
      have := (Nat.pow_lt_pow_iff_right (by decide)).mp (Nat.lt_of_mul_lt_mul_left hlt)
      omega
  have hint : m * 2 ^ f.scale / 2 ^ b = (n * 2 ^ (j - b) : Nat) := by
    rw [hm, ← Nat.sub_add_cancel hbj, pow_add, ← mul_assoc, mul_div_cancel_right₀ _ (by positivity), Nat.add_sub_cancel]
    push_cast
    rfl
  have hkeq : (k * 2 ^ b : ℝ) = m * 2 ^ f.scale := by
    have hk' := hk
    rw [hint] at hk'
    rw [hk'.eq_of_natCast, ← hint, div_mul_cancel₀ _ (by positivity)]
  rw [f.value_toReal, hb.value_num_pack hf hk hfin neg, div_eq_iff (by positivity)]
  cases neg
  · simpa [signed] using hkeq
  · simpa [signed] using hkeq

/-! ### Widening (R165) -/

theorem f64FromF32_of_isZero {x : Word} (h : isZero x = true) : f64FromF32 x = zero64Of (sign x) := by
  simp [f64FromF32, isNaN_isInf_of_isZero h, h]

theorem f64FromF32_of_isInf {x : Word} (h : isInf x = true) : f64FromF32 x = inf64Of (sign x) := by
  simp [f64FromF32, isNaN_isZero_of_isInf h, h]

theorem f64FromF32_of_nonzero {x : Word} (h : isFinite x = true) (hz : isZero x = false) :
    f64FromF32 x = binary64.round 64 (value x) := by
  simp [f64FromF32, isNaN_isInf_of_isFinite h, hz]

/-- Every finite binary32 value is a binary64 value. -/
theorem roundsMagnitude_f64FromF32 {x : Word} (h : isFinite x = true) (hz : isZero x = false) :
    binary64.RoundsMagnitude (f64FromF32 x) (sign x) |((value x).toRat : ℝ)| := by
  have hnum : (value x).num ≠ 0 := (value_num_eq_zero x).not.mpr (by simp [hz])
  have hlt : |((value x).toRat : ℝ)| < binary64.overflow :=
    calc |((value x).toRat : ℝ)| < 2 ^ (binary32.bias + 1) := binary32_fits.abs_value_lt h
      _ ≤ 2 ^ binary64.bias := pow_le_pow_right₀ (by norm_num) (by decide)
      _ ≤ binary64.overflow := binary64.two_pow_bias_le_overflow
  rw [f64FromF32_of_nonzero h hz, ← decide_value_num_neg hnum]
  exact binary64_fits.roundsMagnitude_round (value_den_pos x) hnum hlt

theorem toReal_eq_signed_abs (x : Word) :
    ((value x).toRat : ℝ) = if sign x then -|((value x).toRat : ℝ)| else |((value x).toRat : ℝ)| := by
  obtain hz | hnum := eq_or_ne (value x).num 0
  · simp [(value x).toReal, hz]
  · rw [← decide_value_num_neg hnum, (value x).abs_toReal]
    exact (value x).toReal_eq

theorem f64FromF32_of_isFinite {x : Word} (h : isFinite x = true) :
    binary64.isFinite (f64FromF32 x) = true ∧ (binary64.value (f64FromF32 x)).toRat = (value x).toRat ∧
    binary64.sign (f64FromF32 x) = sign x := by
  cases hz : isZero x
  · have hround := roundsMagnitude_f64FromF32 h hz
    have hscale : |((value x).toRat : ℝ)| * 2 ^ binary64.scale
        = binary32.significand x * 2 ^ (binary32.lead x + (binary64.scale - binary32.scale)) := by
      have hle : binary64.scale = binary32.scale + (binary64.scale - binary32.scale) := by decide
      rw [value, binary32.abs_value, Format.steps, hle, pow_add, pow_add, ← hle]
      push_cast
      field_simp
    have hsig : binary32.significand x < 2 ^ (binary64.fracBits + 1) :=
      (binary32.significand_lt x).trans_le (Nat.pow_le_pow_right (by decide) (by decide))
    have hvalue := hround.value_eq binary64_fits hsig (by exact_mod_cast hscale)
    rw [← toReal_eq_signed_abs] at hvalue
    exact ⟨(hround.isNearestEven binary64_fits).1, by exact_mod_cast hvalue, hround.sign_eq binary64_fits⟩
  · rw [f64FromF32_of_isZero hz, (value_toRat_eq_zero x).mpr hz, binary64.value_toRat_eq_zero]
    cases sign x <;> decide

/-- Settles O34: widening has nothing to round, and the bounds of rounding are those of every format. -/
theorem wideningIsExactAndNarrowingRoundsOnce : Obligations.WideningIsExactAndNarrowingRoundsOnce := by
  unfold Obligations.WideningIsExactAndNarrowingRoundsOnce
  refine ⟨fun x => f64FromF32_of_isFinite, fun r hden hnum => ⟨binary64_fits.sign_round hden hnum, fun h => ?finite,
    fun h => ?overflow⟩, fun y hfin hz => ?narrow⟩
  case finite =>
    apply binary64_fits.isNearestEven_round hden hnum
    rw [binary64_overflow]
    exact_mod_cast h
  case overflow =>
    rw [inf64Of_eq_pack]
    apply binary64.round_of_overflow 64 hden
    rw [binary64_overflow]
    exact_mod_cast h
  case narrow =>
    obtain ⟨hnan, hinf⟩ := (binary64.isFinite_iff y).mp hfin
    exact ⟨binary64.value y, binary64.value_den_pos y, rfl, by simp [f32FromF64, hnan, hinf, hz]⟩

/-! ### The binary64 reciprocal and square root (R165) -/

theorem f64OneDiv_of_nonzero {y : DWord} (h : binary64.isFinite y = true) (hz : binary64.isZero y = false) :
    f64OneDiv y = binary64.round 64 (Frac.div ⟨1, 1⟩ (binary64.value y)) := by
  obtain ⟨hnan, hinf⟩ := (binary64.isFinite_iff y).mp h
  simp [f64OneDiv, hnan, hinf, hz]

theorem f64OneDiv_rounds {y : DWord} (h : binary64.isFinite y = true) (hz : binary64.isZero y = false) :
    ∃ r : Frac, 0 < r.den ∧ r.toRat = 1 / (binary64.value y).toRat ∧ f64OneDiv y = binary64.round 64 r := by
  have hnum : (binary64.value y).num ≠ 0 := (binary64.value_num_eq_zero y).not.mpr (by simp [hz])
  refine ⟨_, Frac.den_div Nat.one_pos hnum, ?_, f64OneDiv_of_nonzero h hz⟩
  have hone : (Frac.mk 1 1).toRat = 1 := by norm_num [Frac.toRat]
  rw [Frac.toRat_div hnum, hone]

/-- The binade of a square root has half the exponent. -/
theorem Format.Fits.inBinade_sqrt {f : Format} {w : Nat} (hf : f.Fits w) {m : ℝ} {l : ℤ} (hlow : 2 ^ l ≤ m)
    (hhigh : m < 2 ^ (l + 1)) : f.InBinade (f.binade (l / 2)) (Real.sqrt m * 2 ^ f.scale) := by
  have hpow (n : ℤ) : ((2 : ℝ) ^ n) ^ 2 = 2 ^ (n * 2) := (zpow_mul 2 n 2).symm
  apply hf.inBinade
  · apply Real.le_sqrt_of_sq_le
    rw [hpow]
    exact (zpow_le_zpow_right₀ (by norm_num) (by omega)).trans hlow
  · rw [Real.sqrt_lt' (by positivity), hpow]
    exact hhigh.trans_le (zpow_le_zpow_right₀ (by norm_num) (by omega))

/-- Scaling under the root by squares scales the root. -/
theorem nearestInt_sqrt_scaled (n : Nat) {d : Nat} (hd : 0 < d) (s b : Nat) :
    NearestInt (nearestEvenSqrt (n * 2 ^ (2 * s)) (d * 2 ^ (2 * b))) (Real.sqrt (n / d) * 2 ^ s / 2 ^ b) := by
  convert nearestInt_nearestEvenSqrt (n * 2 ^ (2 * s)) (Nat.mul_pos hd (Nat.two_pow_pos (2 * b))) using 1
  have hscaled : ((n * 2 ^ (2 * s) : Nat) : ℝ) / ((d * 2 ^ (2 * b) : Nat) : ℝ) = n / d * (2 ^ s / 2 ^ b) ^ 2 := by
    push_cast
    rw [div_pow, ← pow_mul, ← pow_mul, mul_comm s, mul_comm b, mul_div_mul_comm]
  rw [hscaled, Real.sqrt_mul (by positivity), Real.sqrt_sq (by positivity), mul_div_assoc]

/-- `roundSqrt` rounds the root of a positive number, where the root is below the overflow threshold. -/
theorem Format.Fits.roundsMagnitude_roundSqrt {f : Format} {w : Nat} (hf : f.Fits w) {r : Frac} (hden : 0 < r.den)
    (hnum : 0 < r.num) (h : Real.sqrt |(r.toRat : ℝ)| < f.overflow) :
    f.RoundsMagnitude (f.roundSqrt w r) false (Real.sqrt |(r.toRat : ℝ)|) := by
  have hden' : (0 : ℝ) < r.den := by exact_mod_cast hden
  rw [r.abs_toReal] at h ⊢
  have hover : ¬f.overflow * f.overflow * r.den ≤ r.num.natAbs := by
    rw [Real.sqrt_lt' (lt_of_le_of_lt (Real.sqrt_nonneg _) h), div_lt_iff₀ hden', pow_two] at h
    exact_mod_cast h.not_ge
  obtain ⟨hlow, hhigh⟩ := floorLog2_bounds (Int.natAbs_pos.mpr hnum.ne') hden
  have hb := hf.inBinade_sqrt hlow hhigh
  have hk := nearestInt_sqrt_scaled r.num.natAbs hden f.scale (f.binade (floorLog2 r.num.natAbs r.den / 2))
  refine ⟨_, _, ?_, hb.encodeBits_lt hf hk (mul_lt_mul_of_pos_right h (by positivity)), hb, hk⟩
  simp only [Format.roundSqrt, hover, if_false]

/-- The root of a finite value is below the overflow threshold. -/
theorem Format.Fits.sqrt_abs_value_lt {f : Format} {w : Nat} (hf : f.Fits w) {x : BitVec w} (h : f.isFinite x = true) :
    Real.sqrt |((f.value x).toRat : ℝ)| < f.overflow := by
  have hbias := hf.fracBits_lt_bias
  refine lt_of_lt_of_le ?_ f.two_pow_bias_le_overflow
  rw [Real.sqrt_lt' (by positivity), ← pow_mul]
  exact (hf.abs_value_lt h).trans_le (pow_le_pow_right₀ (by norm_num) (by omega))

theorem f64Sqrt_of_pos {y : DWord} (h : binary64.isFinite y = true) (hz : binary64.isZero y = false)
    (hs : binary64.sign y = false) : f64Sqrt y = binary64.roundSqrt 64 (binary64.value y) := by
  obtain ⟨hnan, hinf⟩ := (binary64.isFinite_iff y).mp h
  simp [f64Sqrt, hnan, hinf, hz, hs]

theorem f64Sqrt_nearest {y : DWord} (h : binary64.isFinite y = true) (hz : binary64.isZero y = false)
    (hs : binary64.sign y = false) : binary64.sign (f64Sqrt y) = false ∧
    binary64.IsNearestEven (f64Sqrt y) (Real.sqrt ((binary64.value y).toRat : ℝ)) := by
  have hnum : 0 < (binary64.value y).num := by
    have hne := (binary64.value_num_eq_zero y).not.mpr (by simp [hz])
    have hneg := (binary64.value_num_neg y).not.mpr (by simp [hs])
    omega
  have hpos : (0 : ℝ) ≤ (binary64.value y).toRat := by
    rw [(binary64.value y).toReal]
    have : (0 : ℝ) < (binary64.value y).num := by exact_mod_cast hnum
    positivity
  have hround := binary64_fits.roundsMagnitude_roundSqrt (binary64.value_den_pos y) hnum
    (binary64_fits.sqrt_abs_value_lt h)
  rw [← f64Sqrt_of_pos h hz hs, abs_of_nonneg hpos] at hround
  exact ⟨hround.sign_eq binary64_fits, hround.isNearestEven binary64_fits⟩

theorem sqrt_div_le_half_iff (n c : Nat) {d : Nat} (hd : 0 < d) :
    Real.sqrt ((n : ℝ) / d) ≤ (c : ℝ) / 2 ↔ 4 * n ≤ d * c ^ 2 := by
  have hd' : (0 : ℝ) < d := by exact_mod_cast hd
  have hfour : (2 : ℝ) ^ 2 = 4 := by norm_num
  rw [Real.sqrt_le_left (by positivity), div_pow, hfour, div_le_div_iff₀ hd' (by norm_num), mul_comm, mul_comm _ (d : ℝ)]
  exact_mod_cast Iff.rfl

theorem half_le_sqrt_div_iff (n c : Nat) {d : Nat} (hd : 0 < d) :
    (c : ℝ) / 2 ≤ Real.sqrt ((n : ℝ) / d) ↔ d * c ^ 2 ≤ 4 * n := by
  have hd' : (0 : ℝ) < d := by exact_mod_cast hd
  have hfour : (2 : ℝ) ^ 2 = 4 := by norm_num
  rw [Real.le_sqrt (by positivity) (by positivity), div_pow, hfour, div_le_div_iff₀ (by norm_num) hd', mul_comm,
    mul_comm _ (4 : ℝ)]
  exact_mod_cast Iff.rfl

theorem sqrt_div_eq_half {n c d : Nat} (hd : 0 < d) (h : 4 * n = d * c ^ 2) : Real.sqrt ((n : ℝ) / d) = (c : ℝ) / 2 :=
  le_antisymm ((sqrt_div_le_half_iff n c hd).mpr h.le) ((half_le_sqrt_div_iff n c hd).mpr h.ge)

/-- The distance of `nearestEvenSqrt` to the root as bounds on integers, and its parity where a bound is met. -/
theorem nearestEvenSqrt_bounds (n : Nat) {d : Nat} (hd : 0 < d) :
    4 * n ≤ d * (2 * nearestEvenSqrt n d + 1) ^ 2 ∧
    (0 < nearestEvenSqrt n d → d * (2 * nearestEvenSqrt n d - 1) ^ 2 ≤ 4 * n) ∧
    (4 * n = d * (2 * nearestEvenSqrt n d + 1) ^ 2 → nearestEvenSqrt n d % 2 = 0) ∧
    (0 < nearestEvenSqrt n d → 4 * n = d * (2 * nearestEvenSqrt n d - 1) ^ 2 → nearestEvenSqrt n d % 2 = 0) := by
  have hk := nearestInt_nearestEvenSqrt n hd
  generalize nearestEvenSqrt n d = k at *
  obtain ⟨hbelow, habove⟩ := abs_le.mp hk.dist_le
  have hup : ((2 * k + 1 : Nat) : ℝ) / 2 = k + 1 / 2 := by push_cast; ring
  have hdown (hpos : 0 < k) : ((2 * k - 1 : Nat) : ℝ) / 2 = k - 1 / 2 := by
    rw [Nat.cast_sub (by omega)]
    push_cast
    ring
  refine ⟨?upper, fun hpos => ?lower, fun heq => hk.even_of_tie ?_, fun hpos heq => hk.even_of_tie ?_⟩
  case upper => rw [← sqrt_div_le_half_iff n _ hd, hup]; linarith
  case lower => rw [← half_le_sqrt_div_iff n _ hd, hdown hpos]; linarith
  · rw [sqrt_div_eq_half hd heq, hup]
    norm_num
  · rw [sqrt_div_eq_half hd heq, hdown hpos]
    norm_num

/-- Settles O35: the exact reciprocal rounded once, and the root as the nearest multiple of the spacing of its binade. -/
theorem binary64ReciprocalAndSquareRoot : Obligations.Binary64ReciprocalAndSquareRoot := by
  unfold Obligations.Binary64ReciprocalAndSquareRoot
  exact ⟨fun y => f64OneDiv_rounds, fun y => f64Sqrt_nearest, fun n d => nearestEvenSqrt_bounds n⟩

/-! ### NaNs on the binary64 path (R151, R165, R166) -/

theorem quiet64_quiet64 (y : DWord) : quiet64 (quiet64 y) = quiet64 y := by
  rw [quiet64, quiet64, BitVec.or_assoc, BitVec.or_self]

/-- A NaN's payload widened: its fraction above 29 zeros (R165). -/
def widenedNaN (s : BitVec 1) (payload : BitVec 23) : DWord := s ++ 0x7FF#11 ++ payload ++ 0#29

theorem f64FromF32_of_isNaN {x : Word} (h : isNaN x = true) :
    f64FromF32 x = quiet64 (widenedNaN (x.extractLsb' 31 1) (x.extractLsb' 0 23)) := by
  rw [f64FromF32, if_pos h]
  rfl

theorem quiet64_widenedNaN (s : BitVec 1) (payload : BitVec 23) :
    quiet64 (widenedNaN s payload) = widenedNaN s (payload ||| 0x400000#23) := by
  have hbit : 0x0008000000000000#64 = 0#1 ++ 0#11 ++ 0x400000#23 ++ 0#29 := rfl
  rw [quiet64, widenedNaN, hbit, BitVec.or_append, BitVec.or_append, BitVec.or_append, BitVec.or_zero, BitVec.or_zero,
    BitVec.or_zero]
  rfl

theorem sign_widenedNaN (s : BitVec 1) (payload : BitVec 23) : (widenedNaN s payload).extractLsb' 63 1 = s := by
  ext i hi
  grind [widenedNaN]

theorem exponent_widenedNaN (s : BitVec 1) (payload : BitVec 23) :
    (widenedNaN s payload).extractLsb' 52 11 = 0x7FF#11 := by
  ext i hi
  grind [widenedNaN]

theorem payload_widenedNaN (s : BitVec 1) (payload : BitVec 23) :
    (widenedNaN s payload).extractLsb' 29 23 = payload := by
  ext i hi
  grind [widenedNaN]

theorem isNaN_widenedNaN (s : BitVec 1) {payload : BitVec 23} (h : payload ≠ 0#23) :
    binary64.isNaN (widenedNaN s payload) = true := by
  have hexp : binary64.exponent (widenedNaN s payload) = binary64.maxExp :=
    congrArg BitVec.toNat (exponent_widenedNaN s payload)
  have hfrac : binary64.fraction (widenedNaN s payload) ≠ 0 := by
    intro hzero
    have hextract : (widenedNaN s payload).extractLsb' 0 52 = 0#52 := BitVec.eq_of_toNat_eq hzero
    have hnested (y : DWord) : y.extractLsb' 29 23 = (y.extractLsb' 0 52).extractLsb' 29 23 := by
      ext i hi
      simp
    rw [← payload_widenedNaN s payload, hnested, hextract] at h
    exact h rfl
  simp [Format.isNaN, hexp, hfrac]

theorem or_quietBit_ne_zero (payload : BitVec 23) : payload ||| 0x400000#23 ≠ 0#23 := by
  rw [ne_eq, BitVec.or_eq_zero_iff]
  exact fun h => absurd h.2 (by decide)

/-- A NaN is its sign, the exponent of ones and its payload. -/
theorem eq_append_of_isNaN {x : Word} (h : isNaN x = true) :
    x = x.extractLsb' 31 1 ++ 0xFF#8 ++ x.extractLsb' 0 23 := by
  have hexp : x.extractLsb' 23 8 = 0xFF#8 := by
    simp only [isNaN, Format.isNaN, Bool.and_eq_true, beq_iff_eq] at h
    exact BitVec.eq_of_toNat_eq h.1
  rw [← hexp]
  ext i hi
  grind

theorem quiet_append (s : BitVec 1) (e : BitVec 8) (payload : BitVec 23) :
    quiet (s ++ e ++ payload) = s ++ e ++ (payload ||| 0x400000#23) := by
  have hbit : 0x00400000#32 = 0#1 ++ 0#8 ++ 0x400000#23 := rfl
  rw [quiet, hbit, BitVec.or_append, BitVec.or_append, BitVec.or_zero, BitVec.or_zero]

theorem f32FromF64_widenedNaN (s : BitVec 1) {payload : BitVec 23} (h : payload ≠ 0#23) :
    f32FromF64 (widenedNaN s payload) = quiet (s ++ 0xFF#8 ++ payload) := by
  rw [f32FromF64, if_pos (isNaN_widenedNaN s h), sign_widenedNaN, payload_widenedNaN]

/-- A NaN widened and narrowed again is quieted. -/
theorem f32FromF64_f64FromF32_of_isNaN {x : Word} (h : isNaN x = true) : f32FromF64 (f64FromF32 x) = quiet x := by
  rw [f64FromF32_of_isNaN h, quiet64_widenedNaN, f32FromF64_widenedNaN _ (or_quietBit_ne_zero _), quiet_append,
    BitVec.or_assoc, BitVec.or_self, ← quiet_append, ← eq_append_of_isNaN h]

theorem isNaN_f64FromF32 {x : Word} (h : isNaN x = true) : binary64.isNaN (f64FromF32 x) = true := by
  rw [f64FromF32_of_isNaN h, quiet64_widenedNaN]
  exact isNaN_widenedNaN _ (or_quietBit_ne_zero _)

/-- A NaN passes every step of the three paths unchanged, but for the quieting. -/
theorem roots_of_isNaN {x : Word} (h : isNaN x = true) :
    f32Rcp x = quiet x ∧ f32Sqrt x = quiet x ∧ f32Rsqrt x = quiet x := by
  have hquiet : quiet64 (f64FromF32 x) = f64FromF32 x := by rw [f64FromF32_of_isNaN h, quiet64_quiet64]
  have hdiv : f64OneDiv (f64FromF32 x) = f64FromF32 x := by rw [f64OneDiv, if_pos (isNaN_f64FromF32 h), hquiet]
  have hsqrt : f64Sqrt (f64FromF32 x) = f64FromF32 x := by rw [f64Sqrt, if_pos (isNaN_f64FromF32 h), hquiet]
  rw [f32Rcp, f32Sqrt, f32Rsqrt, hsqrt, hdiv, f32FromF64_f64FromF32_of_isNaN h]
  exact ⟨rfl, rfl, rfl⟩

/-! ### Zeros, infinities and negative operands (R166) -/

theorem roots_of_zero (s : Bool) : f32Rcp (zeroOf s) = infOf s ∧ f32Sqrt (zeroOf s) = zeroOf s ∧
    f32Rsqrt (zeroOf s) = infOf s := by
  cases s <;> decide

theorem f32Rcp_of_inf (s : Bool) : f32Rcp (infOf s) = zeroOf s := by
  cases s <;> decide

theorem roots_of_posInf : f32Sqrt (infOf false) = infOf false ∧ f32Rsqrt (infOf false) = zeroOf false := by
  decide

/-- Widening keeps what makes a square root invalid: the sign bit, and being neither a NaN nor a zero. -/
theorem f64Sqrt_of_negative {x : Word} (hnan : isNaN x = false) (hz : isZero x = false) (hs : sign x = true) :
    f64Sqrt (f64FromF32 x) = defaultNaN64 := by
  cases hinf : isInf x
  · have hfin := isFinite_of_not_inf hnan hinf
    obtain ⟨hwide, hvalue, hsign⟩ := f64FromF32_of_isFinite hfin
    have hnan64 := ((binary64.isFinite_iff _).mp hwide).1
    have hz64 : binary64.isZero (f64FromF32 x) = false := by
      rw [Bool.eq_false_iff, ne_eq, ← binary64.value_toRat_eq_zero, hvalue, value_toRat_eq_zero, hz]
      decide
    simp [f64Sqrt, hnan64, hz64, hsign, hs]
  · rw [f64FromF32_of_isInf hinf, hs]
    decide

theorem roots_of_negative {x : Word} (hnan : isNaN x = false) (hz : isZero x = false) (hs : sign x = true) :
    f32Sqrt x = 0xFFC00000#32 ∧ f32Rsqrt x = 0xFFC00000#32 := by
  rw [f32Sqrt, f32Rsqrt, f64Sqrt_of_negative hnan hz hs]
  decide

/-- Settles O36: NaNs and negative operands by what each step of the path does with them, zeros and infinities by evaluation. -/
theorem reciprocalAndRoots : Obligations.ReciprocalAndRoots := by
  unfold Obligations.ReciprocalAndRoots
  refine ⟨fun x => ⟨rfl, rfl, rfl⟩, fun x => roots_of_isNaN, fun x hz => ?zero, fun x hinf => ?inf,
    fun x hinf hs => ?posInf, fun x => roots_of_negative⟩
  case zero =>
    rw [eq_zeroOf_of_isZero hz, sign_zeroOf]
    exact roots_of_zero (sign x)
  case inf =>
    rw [eq_infOf_of_isInf hinf, sign_infOf]
    exact f32Rcp_of_inf (sign x)
  case posInf =>
    rw [eq_infOf_of_isInf hinf, hs]
    exact roots_of_posInf

/-- Settles O28: the guards of each primitive; a square root below zero keeps its sign through the widening. -/
theorem invalidOperationsGiveDefaultNan : Obligations.InvalidOperationsGiveDefaultNan := by
  unfold Obligations.InvalidOperationsGiveDefaultNan
  intro a b
  refine ⟨f32Add_of_opposite_infinities, fun ha hb hs => ?sub, fun ha hb => ?zeroMul, fun ha hb => ?mulZero,
    fun ha hb => ?zeroDiv, fun ha hb => ?infDiv, fun hnan hs hz => (roots_of_negative hnan hz hs).1⟩
  case sub =>
    rw [f32Sub_eq_f32Add (isNaN_isZero_of_isInf ha).1 (isNaN_isZero_of_isInf hb).1]
    exact f32Add_of_opposite_infinities ha ((isInf_negate b).trans hb) (by simp [sign_negate, hs])
  case zeroMul => simp [f32Mul, isNaN_isInf_of_isZero ha, isNaN_isZero_of_isInf hb, ha, hb, defaultNaN]
  case mulZero => simp [f32Mul, isNaN_isZero_of_isInf ha, isNaN_isInf_of_isZero hb, ha, hb, defaultNaN]
  case zeroDiv => simp [f32Div, isNaN_isInf_of_isZero ha, isNaN_isInf_of_isZero hb, ha, hb, defaultNaN]
  case infDiv => simp [f32Div, isNaN_isZero_of_isInf ha, isNaN_isZero_of_isInf hb, ha, hb, defaultNaN]

end Sys2Proof.Machine
end

section
/-! Proofs of the statements about the lane-wise arithmetic instructions (spec/42_arithmetic.md R170-R178): each retires its
primitive over the lanes of the operands. -/

namespace Sys2Proof.Machine

/-- Settles O23: six instructions of one form, `mapLanes₂` of the primitive. -/
theorem lanewiseArithmetic : Obligations.LanewiseArithmetic := by
  unfold Obligations.LanewiseArithmetic
  intro s vd va vb
  refine ⟨?vadd, ?vsub, ?vmul, ?vdiv, ?vmin, ?vmax⟩
  case vadd => exact .of_exec rfl (lane_mapLanes₂ f32Add _ _)
  case vsub => exact .of_exec rfl (lane_mapLanes₂ f32Sub _ _)
  case vmul => exact .of_exec rfl (lane_mapLanes₂ f32Mul _ _)
  case vdiv => exact .of_exec rfl (lane_mapLanes₂ f32Div _ _)
  case vmin => exact .of_exec rfl (lane_mapLanes₂ f32Min _ _)
  case vmax => exact .of_exec rfl (lane_mapLanes₂ f32Max _ _)

/-- Settles O24: three instructions of one form, `mapLanes` of the primitive. -/
theorem lanewiseRoots : Obligations.LanewiseRoots := by
  unfold Obligations.LanewiseRoots
  intro s vd va
  refine ⟨?vrcp, ?vsqrt, ?vrsqrt⟩
  case vrcp => exact .of_exec rfl (lane_mapLanes f32Rcp _)
  case vsqrt => exact .of_exec rfl (lane_mapLanes f32Sqrt _)
  case vrsqrt => exact .of_exec rfl (lane_mapLanes f32Rsqrt _)

end Sys2Proof.Machine
end

section
/-! Proofs of the statements about the horizontal instructions (spec/43_horizontal.md R190-R193): each retires four results on
lane pairs, so a statement comes down to which pair each lane of the result combines. -/

namespace Sys2Proof.Machine

/-- The low lanes of a horizontal result come from the first operand, the high lanes from the second (R190-R192). -/
theorem lane_pairLanes (f : Word → Word → Word) (a b : VWord) :
    lane (pairLanes f a b) .x = f (lane a .x) (lane a .y) ∧ lane (pairLanes f a b) .y = f (lane a .z) (lane a .w) ∧
    lane (pairLanes f a b) .z = f (lane b .x) (lane b .y) ∧ lane (pairLanes f a b) .w = f (lane b .z) (lane b .w) :=
  ⟨lane_lanes .., lane_lanes .., lane_lanes .., lane_lanes ..⟩

/-- The even lanes subtract and the odd lanes add, each the same lane of the two operands (R193). -/
theorem lane_addSubLanes (a b : VWord) :
    lane (addSubLanes a b) .x = f32Sub (lane a .x) (lane b .x) ∧
    lane (addSubLanes a b) .y = f32Add (lane a .y) (lane b .y) ∧
    lane (addSubLanes a b) .z = f32Sub (lane a .z) (lane b .z) ∧
    lane (addSubLanes a b) .w = f32Add (lane a .w) (lane b .w) :=
  ⟨lane_lanes .., lane_lanes .., lane_lanes .., lane_lanes ..⟩

/-- Settles O25: VHADD and VHSUB retire `pairLanes` of their primitive, VADDSUB retires `addSubLanes`. -/
theorem horizontalPairs : Obligations.HorizontalPairs := by
  unfold Obligations.HorizontalPairs
  intro s vd va vb
  refine ⟨?vhadd, ?vhsub, ?vaddsub⟩
  case vhadd => exact .of_exec rfl (lane_pairLanes f32Add _ _)
  case vhsub => exact .of_exec rfl (lane_pairLanes f32Sub _ _)
  case vaddsub => exact .of_exec rfl (lane_addSubLanes _ _)

end Sys2Proof.Machine
end

section
/-! Proofs of the statements about the permute instructions (spec/44_permute.md R201-R206). Each retires a rearrangement of
its operands' lanes, so a statement comes down to which source lane each lane of the result is. -/

namespace Sys2Proof.Machine

/-! ### Duplicates and interleaves lane by lane (R201-R204) -/

/-- Each even lane fills its pair (R201). -/
theorem lane_duplicateLow (v : VWord) :
    lane (duplicateLow v) .x = lane v .x ∧ lane (duplicateLow v) .y = lane v .x ∧
    lane (duplicateLow v) .z = lane v .z ∧ lane (duplicateLow v) .w = lane v .z :=
  ⟨lane_lanes .., lane_lanes .., lane_lanes .., lane_lanes ..⟩

/-- Each odd lane fills its pair (R202). -/
theorem lane_duplicateHigh (v : VWord) :
    lane (duplicateHigh v) .x = lane v .y ∧ lane (duplicateHigh v) .y = lane v .y ∧
    lane (duplicateHigh v) .z = lane v .w ∧ lane (duplicateHigh v) .w = lane v .w :=
  ⟨lane_lanes .., lane_lanes .., lane_lanes .., lane_lanes ..⟩

/-- The low lanes of the two operands alternate, the first operand's before the second's (R203). -/
theorem lane_interleaveLow (a b : VWord) :
    lane (interleaveLow a b) .x = lane a .x ∧ lane (interleaveLow a b) .y = lane b .x ∧
    lane (interleaveLow a b) .z = lane a .y ∧ lane (interleaveLow a b) .w = lane b .y :=
  ⟨lane_lanes .., lane_lanes .., lane_lanes .., lane_lanes ..⟩

/-- The high lanes of the two operands alternate, the first operand's before the second's (R204). -/
theorem lane_interleaveHigh (a b : VWord) :
    lane (interleaveHigh a b) .x = lane a .z ∧ lane (interleaveHigh a b) .y = lane b .z ∧
    lane (interleaveHigh a b) .z = lane a .w ∧ lane (interleaveHigh a b) .w = lane b .w :=
  ⟨lane_lanes .., lane_lanes .., lane_lanes .., lane_lanes ..⟩

/-- Settles O37: each instruction retires its rearrangement of the operands, read off lane by lane. -/
theorem duplicateAndInterleave : Obligations.DuplicateAndInterleave := by
  unfold Obligations.DuplicateAndInterleave
  intro s vd va vb
  refine ⟨?vdupl, ?vduph, ?vilvl, ?vilvh⟩
  case vdupl => exact .of_exec rfl (lane_duplicateLow _)
  case vduph => exact .of_exec rfl (lane_duplicateHigh _)
  case vilvl => exact .of_exec rfl (lane_interleaveLow _ _)
  case vilvh => exact .of_exec rfl (lane_interleaveHigh _ _)

/-! ### Duplicates and interleaves as shuffles (R206) -/

/-- A shuffle whose selector is known lists the four lanes it selects (R205). -/
theorem shuffle_eq_lanes (v : VWord) {sel : BitVec 8} {i j k l : Lane} (hx : selected sel .x = i)
    (hy : selected sel .y = j) (hz : selected sel .z = k) (hw : selected sel .w = l) :
    shuffle v sel = lanes (lane v i) (lane v j) (lane v k) (lane v l) := by
  rw [shuffle, hx, hy, hz, hw]

theorem shuffle_eq_duplicateLow (v : VWord) : shuffle v 0xA0#8 = duplicateLow v :=
  shuffle_eq_lanes v (by decide) (by decide) (by decide) (by decide)

theorem shuffle_eq_duplicateHigh (v : VWord) : shuffle v 0xF5#8 = duplicateHigh v :=
  shuffle_eq_lanes v (by decide) (by decide) (by decide) (by decide)

theorem shuffle_eq_interleaveLow_self (v : VWord) : shuffle v 0x50#8 = interleaveLow v v :=
  shuffle_eq_lanes v (by decide) (by decide) (by decide) (by decide)

theorem shuffle_eq_interleaveHigh_self (v : VWord) : shuffle v 0xFA#8 = interleaveHigh v v :=
  shuffle_eq_lanes v (by decide) (by decide) (by decide) (by decide)

/-- An instruction that retires what a shuffle of `V[va]` gives has that shuffle's outcome. -/
theorem exec_eq_vshuf {i : Instr} {s : State} {vd va : VReg} {sel : BitVec 8} {v : VWord}
    (hexec : exec i s = .next (s.retireV vd v)) (hv : shuffle (s.readV va) sel = v) :
    exec i s = exec (.vshuf vd va sel) s := by
  rw [hexec, ← hv]
  rfl

/-- Settles O39: each instruction retires the rearrangement that its selector gives. -/
theorem duplicatesAreShuffles : Obligations.DuplicatesAreShuffles := by
  unfold Obligations.DuplicatesAreShuffles
  intro s vd va
  refine ⟨?vdupl, ?vduph, ?vilvl, ?vilvh⟩
  case vdupl => exact exec_eq_vshuf rfl (shuffle_eq_duplicateLow _)
  case vduph => exact exec_eq_vshuf rfl (shuffle_eq_duplicateHigh _)
  case vilvl => exact exec_eq_vshuf rfl (shuffle_eq_interleaveLow_self _)
  case vilvh => exact exec_eq_vshuf rfl (shuffle_eq_interleaveHigh_self _)

end Sys2Proof.Machine
end

section
/-! Proofs of the statements about the comparisons (spec/45_compare.md R220-R230). Each retires the mask of its relation lane by
lane; between ordered operands the relations are those of the integer order of the keys, which is total. -/

namespace Sys2Proof.Machine

/-! ### Masks (R220, R221) -/

@[simp] theorem lane_compareLanes (p : Word → Word → Bool) (a b : VWord) (k : Lane) :
    lane (compareLanes p a b) k = maskLane (p (lane a k) (lane b k)) := by
  rw [compareLanes, lane_mapLanes₂]

/-- A lane of a comparison is all ones where the relation holds and all zeros where it does not (R220, R221). -/
theorem lane_compareLanes_cases (p : Word → Word → Bool) (a b : VWord) (k : Lane) :
    (p (lane a k) (lane b k) = true → lane (compareLanes p a b) k = 0xFFFFFFFF#32) ∧
    (p (lane a k) (lane b k) = false → lane (compareLanes p a b) k = 0x00000000#32) := by
  rw [lane_compareLanes]
  constructor <;> intro h <;> rw [h] <;> rfl

/-- Settles O40: eight instructions of one form, `compareLanes` of the relation. -/
theorem comparisonsWriteMasks : Obligations.ComparisonsWriteMasks := by
  unfold Obligations.ComparisonsWriteMasks
  intro s vd va vb mask
  refine ⟨?vcmpeq, ?vcmplt, ?vcmple, ?vcmpunord, ?vcmpneq, ?vcmpnlt, ?vcmpnle, ?vcmpord⟩
  case vcmpeq => exact .of_exec rfl (lane_compareLanes_cases f32Eq _ _)
  case vcmplt => exact .of_exec rfl (lane_compareLanes_cases f32Lt _ _)
  case vcmple => exact .of_exec rfl (lane_compareLanes_cases f32Le _ _)
  case vcmpunord => exact .of_exec rfl (lane_compareLanes_cases f32Unord _ _)
  case vcmpneq => exact .of_exec rfl (lane_compareLanes_cases (fun x y => !f32Eq x y) _ _)
  case vcmpnlt => exact .of_exec rfl (lane_compareLanes_cases (fun x y => !f32Lt x y) _ _)
  case vcmpnle => exact .of_exec rfl (lane_compareLanes_cases (fun x y => !f32Le x y) _ _)
  case vcmpord => exact .of_exec rfl (lane_compareLanes_cases (fun x y => !f32Unord x y) _ _)

/-! ### Negated comparisons (R230) -/

theorem f32Unord_comm (a b : Word) : f32Unord a b = f32Unord b a := Bool.or_comm _ _

theorem f32Unord_eq_false_iff {a b : Word} : f32Unord a b = false ↔ isNaN a = false ∧ isNaN b = false :=
  Bool.or_eq_false_iff

/-- Between ordered operands the order is total: the one strict relation fails exactly where the other, weak one holds. -/
theorem not_f32Lt_of_ordered {a b : Word} (h : f32Unord a b = false) : (!f32Lt a b) = f32Le b a := by
  obtain ⟨ha, hb⟩ := f32Unord_eq_false_iff.mp h
  rw [Bool.eq_iff_iff, Bool.not_eq_true', Bool.eq_false_iff, ne_eq, f32Lt_iff ha hb, f32Le_iff hb ha]
  exact not_lt

theorem not_f32Le_of_ordered {a b : Word} (h : f32Unord a b = false) : (!f32Le a b) = f32Lt b a := by
  rw [← not_f32Lt_of_ordered ((f32Unord_comm b a).trans h), Bool.not_not]

/-- No relation of R163 holds where an operand is a NaN. -/
theorem relations_of_unordered {a b : Word} (h : f32Unord a b = true) :
    f32Lt a b = false ∧ f32Le a b = false ∧ f32Eq a b = false := by
  simp [f32Lt, f32Le, f32Eq, h]

/-- Settles O41: the order is total on ordered operands, and a NaN on either side makes both orders of the operands unordered. -/
theorem negatedComparisons : Obligations.NegatedComparisons := by
  unfold Obligations.NegatedComparisons
  intro a b
  refine ⟨fun h => ⟨not_f32Lt_of_ordered h, not_f32Le_of_ordered h⟩, fun h => ?unordered⟩
  case unordered =>
    obtain ⟨hlt, hle, heq⟩ := relations_of_unordered h
    obtain ⟨hlt', hle', _⟩ := relations_of_unordered ((f32Unord_comm b a).trans h)
    exact ⟨hlt, hle, hlt', hle', heq⟩

end Sys2Proof.Machine
end

section
/-! Proofs of the statements about the casts (spec/46_reinterpret.md R241-R251). Each cast retires its operand read under one
view, and no view changes a bit, so a cast and any sequence of casts is a copy. -/

namespace Sys2Proof.Machine

/-! ### One cast (R241) -/

/-- The view is not read by the datapath (R241). -/
@[simp] theorem castTo_eq (view : View) (v : VWord) : castTo view v = v := rfl

/-- A cast retires its operand under the view that its tag names (R242-R250). -/
theorem exec_cast_castTo {cast : VReg → VReg → Instr} (hcast : cast ∈ castInstrs) :
    ∃ view, ∀ (s : State) (vd va : VReg), exec (cast vd va) s = .next (s.retireV vd (castTo view (s.readV va))) := by
  simp only [castInstrs, List.mem_cons, List.not_mem_nil, or_false] at hcast
  obtain rfl | rfl | rfl | rfl | rfl | rfl | rfl | rfl | rfl := hcast
  · exact ⟨.f32, fun _ _ _ => rfl⟩
  · exact ⟨.s64, fun _ _ _ => rfl⟩
  · exact ⟨.u64, fun _ _ _ => rfl⟩
  · exact ⟨.s32, fun _ _ _ => rfl⟩
  · exact ⟨.u32, fun _ _ _ => rfl⟩
  · exact ⟨.s16, fun _ _ _ => rfl⟩
  · exact ⟨.u16, fun _ _ _ => rfl⟩
  · exact ⟨.s8, fun _ _ _ => rfl⟩
  · exact ⟨.u8, fun _ _ _ => rfl⟩

theorem exec_cast {cast : VReg → VReg → Instr} (hcast : cast ∈ castInstrs) (s : State) (vd va : VReg) :
    exec (cast vd va) s = .next (s.retireV vd (s.readV va)) := by
  obtain ⟨view, hexec⟩ := exec_cast_castTo hcast
  rw [hexec, castTo_eq]

/-- Settles O42: nine instructions of one form, which retires the operand as it is. -/
theorem castsCopyAllBits : Obligations.CastsCopyAllBits := by
  unfold Obligations.CastsCopyAllBits
  intro cast hcast s vd va
  exact .of_exec (exec_cast hcast s vd va) rfl

/-! ### Casts in a row (R251) -/

/-- A sequence goes on from the state its first instruction leaves. -/
theorem execAll_cons_of_next {i : Instr} {s t : State} (hexec : exec i s = .next t) (rest : List Instr) :
    execAll (i :: rest) s = execAll rest t := by
  rw [execAll, hexec]

/-- The second cast reads what the first one wrote. -/
theorem execAll_cast_cast {first second : VReg → VReg → Instr} (hfirst : first ∈ castInstrs) (hsecond : second ∈ castInstrs)
    (s : State) (va vb vc : VReg) :
    execAll [first vb va, second vc vb] s = .next ((s.retireV vb (s.readV va)).retireV vc (s.readV va)) := by
  rw [execAll_cons_of_next (exec_cast hfirst s vb va), execAll_cons_of_next (exec_cast hsecond _ vc vb),
    State.retireV_readV_self, execAll]

/-- Settles O43: both casts copy, so Vc ends with what the first one read, whichever of the registers are the same. -/
theorem castRoundTrip : Obligations.CastRoundTrip := by
  unfold Obligations.CastRoundTrip
  intro first hfirst second hsecond s va vb vc
  exact ⟨_, execAll_cast_cast hfirst hsecond s va vb vc, State.retireV_readV_self ..⟩

end Sys2Proof.Machine
end

section
/-! Proofs of the statements about loads, stores and prefetch (spec/47_load_store.md R260-R262) and `NOP`
(spec/48_scalar_system.md R283). An access that passes its check retires; what its 16 bytes are is said by the rules of the
16-byte access. -/

namespace Sys2Proof.Machine

/-! ### An access that passes its check (R67, R68, R264) -/

theorem State.accessCheck_of_inside {s : State} {ea : Word} (haligned : ea.toNat % 16 = 0)
    (hrange : ea.toNat + 16 ≤ s.dmemSize) : s.accessCheck ea = none :=
  (s.accessCheck_eq_none ea).mpr ⟨(extractLsb'_low4_eq_zero ea).mpr haligned, hrange⟩

theorem exec_vld_of_accessCheck {s : State} {sb : SReg} {off : Int} (hcheck : s.accessCheck (s.address sb off) = none)
    (vt : VReg) :
    exec (.vld vt sb off) s = .next (s.retireV vt (s.dmem.readVector (s.address sb off).toNat)) := by
  simp only [exec, execVld, hcheck]

theorem exec_vst_of_accessCheck {s : State} {sb : SReg} {off : Int} (hcheck : s.accessCheck (s.address sb off) = none)
    (vt : VReg) :
    exec (.vst vt sb off) s = .next (s.retireStore (s.address sb off) (s.readV vt)) := by
  simp only [exec, execVst, hcheck]

/-! ### `VLD` (R260) -/

/-- Settles O45: the aligned access passes its check, and the load retires the 16 bytes read as one vector. -/
theorem loadReadsBytes : Obligations.LoadReadsBytes := by
  unfold Obligations.LoadReadsBytes
  intro s vt sb off haligned hrange
  have hexec := exec_vld_of_accessCheck (State.accessCheck_of_inside haligned hrange) vt
  exact .of_exec hexec fun k hk => Memory.readVector_byte _ _ k hk

/-! ### `VST` (R261) -/

theorem State.sameControl_retireStore (s : State) (ea : Word) (x : VWord) : SameControl s (s.retireStore ea x) :=
  ⟨rfl, rfl, rfl, rfl, rfl, rfl, rfl, rfl⟩

@[simp] theorem State.retireStore_address (s : State) (ea : Word) (x : VWord) (sb : SReg) (off : Int) :
    (s.retireStore ea x).address sb off = s.address sb off := rfl

@[simp] theorem State.retireStore_accessCheck (s : State) (ea : Word) (x : VWord) (a : Word) :
    (s.retireStore ea x).accessCheck a = s.accessCheck a := rfl

/-- Settles O46: the aligned access passes its check, and the store retires one vector write of DMEM and no more. -/
theorem storeWritesBytes : Obligations.StoreWritesBytes := by
  unfold Obligations.StoreWritesBytes
  intro s vt sb off haligned hrange
  refine ⟨_, exec_vst_of_accessCheck (State.accessCheck_of_inside haligned hrange) vt, fun k hk => ?inside,
    fun a ha => ?outside, fun _ _ => rfl, fun _ _ => rfl, fun _ => rfl, s.sameControl_retireStore .., rfl⟩
  case inside => exact Memory.read_writeVector_inside _ _ k _ hk
  case outside => exact Memory.read_writeVector_outside _ _ a _ ha

/-! ### A store and the load after it (R261, R363) -/

/-- The load has the store's address and passes the same check, and it reads the DMEM that the store left. -/
theorem execAll_vst_vld {s : State} {sb : SReg} {off : Int} (hcheck : s.accessCheck (s.address sb off) = none)
    (vt vu : VReg) :
    execAll [.vst vt sb off, .vld vu sb off] s =
      .next ((s.retireStore (s.address sb off) (s.readV vt)).retireV vu (s.readV vt)) := by
  have hload : (s.retireStore (s.address sb off) (s.readV vt)).accessCheck
      ((s.retireStore (s.address sb off) (s.readV vt)).address sb off) = none := by simpa using hcheck
  rw [execAll_cons_of_next (exec_vst_of_accessCheck hcheck vt), execAll_cons_of_next (exec_vld_of_accessCheck hload vu),
    execAll, State.retireStore_address, State.retireStore_dmem, Memory.readVector_writeVector]

/-- Settles O47: the load retires the vector that the store wrote, whether or not the two registers are the same. -/
theorem storeThenLoad : Obligations.StoreThenLoad := by
  unfold Obligations.StoreThenLoad
  intro s vt vu sb off haligned hrange
  exact ⟨_, execAll_vst_vld (State.accessCheck_of_inside haligned hrange) vt vu, State.retireV_readV_self ..⟩

/-! ### `VPREF` and `NOP` (R262, R283) -/

/-- Advancing changes pc and nothing else. -/
theorem State.framePc_advance (s : State) : FramePc s s.advance where
  vregs _ _ := rfl
  sregs _ _ := rfl
  imem _ := rfl
  dmem _ := rfl
  control := ⟨rfl, rfl, rfl, rfl, rfl, rfl, rfl, rfl⟩
  pc := rfl

/-- Settles O48: both instructions advance, and VPREF discards the address it computes. -/
theorem prefetchAndNopOnlyAdvance : Obligations.PrefetchAndNopOnlyAdvance := by
  unfold Obligations.PrefetchAndNopOnlyAdvance
  constructor
  case left => exact fun s _ _ _ => ⟨s.advance, rfl, s.framePc_advance⟩
  case right => exact fun s => ⟨s.advance, rfl, s.framePc_advance⟩

end Sys2Proof.Machine
end

section
/-! Proofs of the statements about the scalar immediates and `HALT` (spec/48_scalar_system.md R281, R282, R293). -/

namespace Sys2Proof.Machine

/-! ### `LIL` and `LIH` as numbers (R281, R282) -/

theorem zeroExtend16_toNat (imm16 : BitVec 16) : (zeroExtend16 imm16).toNat = imm16.toNat := by
  have hlt := imm16.isLt
  rw [zeroExtend16, BitVec.toNat_setWidth, Nat.mod_eq_of_lt (by omega)]

/-- The immediate is the high half, and the low half of the old value stays below it. -/
theorem replaceHigh16_toNat (imm16 : BitVec 16) (old : Word) :
    (replaceHigh16 imm16 old).toNat = imm16.toNat * 2 ^ 16 + old.toNat % 2 ^ 16 := by
  have hlow : (old.extractLsb' 0 16).toNat = old.toNat % 2 ^ 16 := by
    rw [BitVec.extractLsb'_toNat, Nat.shiftRight_zero]
  have hlt : old.toNat % 2 ^ 16 < 2 ^ 16 := Nat.mod_lt _ (by decide)
  rw [replaceHigh16, BitVec.toNat_append, hlow, Nat.shiftLeft_eq, Nat.mul_comm, Nat.two_pow_add_eq_or_of_lt hlt]

/-- Settles O49: both instructions retire one scalar result, the immediate alone or above the kept low half. -/
theorem scalarImmediates : Obligations.ScalarImmediates := by
  unfold Obligations.ScalarImmediates
  intro s sd imm16
  exact ⟨.of_exec rfl (zeroExtend16_toNat imm16), .of_exec rfl (replaceHigh16_toNat imm16 (s.readS sd))⟩

/-! ### `HALT` (R293) -/

/-- Settles O50: `HALT` answers `State.halt`, which touches pc and STATE alone. -/
theorem haltStops : Obligations.HaltStops := by
  unfold Obligations.HaltStops
  intro s
  exact ⟨s.halt, rfl, s.halt_pc, s.halt_seq, fun _ _ => rfl, fun _ _ => rfl, fun _ => rfl, fun _ => rfl, rfl, rfl, rfl,
    rfl, rfl, rfl, rfl⟩

end Sys2Proof.Machine
end

section
/-! Proofs of the statements about a step and its faults (spec/60_exceptions.md). A running step is decided by its fetch: the
decoded instruction's effect, or the entry of the fetch's fault. -/

namespace Sys2Proof.Machine

/-! ### The step for each answer of the fetch (R301, R302, R316) -/

theorem step_of_fetch_ok {s : State} {i : Instr} (hrun : s.seq = .running) (hfetch : s.fetch = .ok i) :
    step s = exec i s := by
  simp only [step, hrun, hfetch]

theorem step_of_fetch_error {s : State} {c : Cause} {info : Word} (hrun : s.seq = .running)
    (hfetch : s.fetch = .error (c, info)) : step s = .next (takeFault c info s) := by
  simp only [step, hrun, hfetch]

/-- Settles O1: the word at pc is inside IMEM and decodes, so the fetch answers its instruction. -/
theorem stepRunsDecodedInstruction : Obligations.StepRunsDecodedInstruction := by
  unfold Obligations.StepRunsDecodedInstruction
  intro s i hrun hinside hdecode
  exact step_of_fetch_ok hrun ((s.fetch_eq_ok i).mpr ⟨hinside, hdecode⟩)

/-- Settles O8: the fetch answers FETCH_FAULT(pc), and the step is its entry. -/
theorem fetchFaultTaken : Obligations.FetchFaultTaken := by
  unfold Obligations.FetchFaultTaken
  intro s hrun hbeyond
  have hfetch : s.fetch = .error (.fetchFault, s.pc) := (s.fetch_eq_error _ _).mpr (.inl ⟨rfl, rfl, hbeyond⟩)
  exact ⟨_, step_of_fetch_error hrun hfetch, faultTaken_takeFault ..⟩

/-- Settles O9: the fetch answers ILLEGAL_INSTRUCTION(word), and the step is its entry. -/
theorem illegalInstructionTaken : Obligations.IllegalInstructionTaken := by
  unfold Obligations.IllegalInstructionTaken
  intro s e hrun hinside hdecode
  have hfetch : s.fetch = .error (.illegalInstruction, s.fetchWord) :=
    (s.fetch_eq_error _ _).mpr (.inr ⟨rfl, rfl, hinside, e, hdecode⟩)
  exact ⟨_, step_of_fetch_error hrun hfetch, faultTaken_takeFault ..⟩

/-- Settles O12, by the three states that are not RUNNING. -/
theorem stoppedSequencerHasNoStep : Obligations.StoppedSequencerHasNoStep := by
  unfold Obligations.StoppedSequencerHasNoStep
  intro s hstopped
  cases hseq : s.seq with
  | running => exact absurd hseq hstopped
  | idle | halted | faulted => simp only [step, hseq, stoppedStep]

/-! ### How a step can leave the sequencer (R293, R304, R306, R309) -/

/-- Settles O11: a retired instruction never ends FAULTED, so the step was a fault entry. -/
theorem faultsArePrecise : Obligations.FaultsArePrecise := by
  unfold Obligations.FaultsArePrecise
  intro s t h hfaulted
  obtain ⟨hrun, hretires | ⟨c, info, hc, rfl⟩⟩ := step_retires_or_faults h
  · exact absurd hfaulted (hretires.seq_ne_faulted hrun)
  · exact ⟨faultTaken_takeFault c info s, hc⟩

/-- An instruction keeps the control state, or is `HALT`, or takes a fault that has a cause. -/
theorem exec_control {i : Instr} {s t : State} (h : exec i s = .next t) :
    SameControl s t ∨ (i = .halt ∧ t = s.halt) ∨ ∃ c info, c ≠ .none ∧ t = takeFault c info s := by
  obtain ⟨vd, x, rfl⟩ | ⟨sd, x, rfl⟩ | ⟨vt, sb, off, -, -, rfl⟩ | ⟨sb, off, c, hcheck, rfl⟩ | rfl | hhalt := exec_cases h
  · exact .inl (s.frameV_retireV vd x).control
  · exact .inl (s.frameS_retireS sd x).control
  · exact .inl (s.sameControl_retireStore ..)
  · exact .inr (.inr ⟨c, _, State.cause_ne_none_of_accessCheck hcheck, rfl⟩)
  · exact .inl s.framePc_advance.control
  · exact .inr (.inl hhalt)

/-- Settles O14: what the fetched instruction can do to the control state, or else the entry of the fetch's fault. -/
theorem onlyHaltAndFaultsStop : Obligations.OnlyHaltAndFaultsStop := by
  unfold Obligations.OnlyHaltAndFaultsStop
  intro s t h
  obtain ⟨hrun, ⟨i, hfetch, hexec⟩ | ⟨c, info, hfetch, rfl⟩⟩ := step_cases h
  · obtain hsame | ⟨rfl, rfl⟩ | ⟨c, info, hc, rfl⟩ := exec_control hexec
    · exact .inl ⟨hsame.seq.trans hrun, hsame⟩
    · exact .inr (.inl ⟨rfl, hfetch⟩)
    · exact .inr (.inr ⟨rfl, hc⟩)
  · exact .inr (.inr ⟨rfl, State.cause_ne_none_of_fetch hfetch⟩)

end Sys2Proof.Machine
end

section
/-! Proofs of the statements about the host's operations and about runs (spec/70_reset_and_hazards.md): what each operation answers
is said once, and what it keeps follows; a run is bounded by the words of IMEM from pc on. -/

namespace Sys2Proof.Machine

/-! ### The host's guards and operations (R345 to R348, R352) -/

theorem State.whileStopped_of_running {α : Type} {s : State} (hrun : s.seq = .running)
    (o : Host.Outcome α Fault Refusal) : s.whileStopped o = .refused .hostAccessWhileRunning :=
  if_pos hrun

theorem State.whileStopped_of_stopped {α : Type} {s : State} (hstopped : s.seq ≠ .running)
    (o : Host.Outcome α Fault Refusal) : s.whileStopped o = o :=
  if_neg hstopped

theorem existing_of_lt {α : Type} {a size : Nat} (h : a < size) (o : Host.Outcome α Fault Refusal) :
    existing a size o = o :=
  if_pos h

section Stopped
variable {s : State}

theorem hostAct_writeV_of_stopped (hstopped : s.seq ≠ .running) (r : VReg) (x : VWord) :
    hostAct (.writeV r x) s = .next (s.writeV r x) :=
  State.whileStopped_of_stopped hstopped _

theorem hostAct_writeS_of_stopped (hstopped : s.seq ≠ .running) (r : SReg) (x : Word) :
    hostAct (.writeS r x) s = .next (s.writeS r x) :=
  State.whileStopped_of_stopped hstopped _

theorem hostAct_writeImem_of_stopped (hstopped : s.seq ≠ .running) {a : Nat} (ha : a < s.imemSize) (x : Byte) :
    hostAct (.writeImem a x) s = .next { s with imem := s.imem.write a x } := by
  rw [hostAct, State.whileStopped_of_stopped hstopped, existing_of_lt ha]

theorem hostAct_writeDmem_of_stopped (hstopped : s.seq ≠ .running) {a : Nat} (ha : a < s.dmemSize) (x : Byte) :
    hostAct (.writeDmem a x) s = .next { s with dmem := s.dmem.write a x } := by
  rw [hostAct, State.whileStopped_of_stopped hstopped, existing_of_lt ha]

theorem State.hostReadV_of_stopped (hstopped : s.seq ≠ .running) (r : VReg) : s.hostReadV r = .next (s.readV r) :=
  State.whileStopped_of_stopped hstopped _

theorem State.hostReadS_of_stopped (hstopped : s.seq ≠ .running) (r : SReg) : s.hostReadS r = .next (s.readS r) :=
  State.whileStopped_of_stopped hstopped _

theorem State.hostReadImem_of_stopped (hstopped : s.seq ≠ .running) {a : Nat} (ha : a < s.imemSize) :
    s.hostReadImem a = .next (s.imem.read a) := by
  rw [State.hostReadImem, State.whileStopped_of_stopped hstopped, existing_of_lt ha]

theorem State.hostReadDmem_of_stopped (hstopped : s.seq ≠ .running) {a : Nat} (ha : a < s.dmemSize) :
    s.hostReadDmem a = .next (s.dmem.read a) := by
  rw [State.hostReadDmem, State.whileStopped_of_stopped hstopped, existing_of_lt ha]

/-- A word with bit 0 set, written to CTRL, starts a stopped sequencer (R345). -/
theorem State.writeWindow_ctrl_of_stopped (hstopped : s.seq ≠ .running) {x : Word} (hx : x.getLsbD 0 = true) :
    s.writeWindow 0x00 x = s.start := by
  simp [State.writeWindow, hx, hstopped]

end Stopped

/-- While RUNNING no write of CTRL does anything (R346). -/
theorem State.writeWindow_ctrl_of_running {s : State} (hrun : s.seq = .running) (x : Word) :
    s.writeWindow 0x00 x = s := by
  simp [State.writeWindow, hrun]

/-- Settles O57: all eight accesses stand behind the guard of R352. -/
theorem hostRefusedWhileRunning : Obligations.HostRefusedWhileRunning := by
  unfold Obligations.HostRefusedWhileRunning
  intro s hrun
  have hrefused {α : Type} (o : Host.Outcome α Fault Refusal) := State.whileStopped_of_running hrun o
  exact ⟨fun _ _ => hrefused _, fun _ _ => hrefused _, fun _ _ => hrefused _, fun _ _ => hrefused _,
    fun _ => hrefused _, fun _ => hrefused _, fun _ => hrefused _, fun _ => hrefused _⟩

/-- Settles O58: a write leaves STATE and the sizes alone, so the read behind the same guards finds what was written. -/
theorem hostReadsWhatItWrote : Obligations.HostReadsWhatItWrote := by
  unfold Obligations.HostReadsWhatItWrote
  intro s hstopped
  refine ⟨fun r x => ?vector, fun r x => ?scalar, fun a x ha => ?imem, fun a x ha => ?dmem⟩
  case vector =>
    refine ⟨s.writeV r x, hostAct_writeV_of_stopped hstopped r x, ?_⟩
    rw [State.hostReadV_of_stopped (by simpa using hstopped), State.readV_writeV_self]
  case scalar =>
    refine ⟨s.writeS r x, hostAct_writeS_of_stopped hstopped r x, ?_⟩
    rw [State.hostReadS_of_stopped (by simpa using hstopped), State.readS_writeS_self]
  case imem =>
    refine ⟨_, hostAct_writeImem_of_stopped hstopped ha x, ?_, fun _ hb => s.imem.read_write_other x hb⟩
    rw [State.hostReadImem_of_stopped (by simpa using hstopped) (by simpa using ha), Memory.read_write_same]
  case dmem =>
    refine ⟨_, hostAct_writeDmem_of_stopped hstopped ha x, ?_, fun _ hb => s.dmem.read_write_other x hb⟩
    rw [State.hostReadDmem_of_stopped (by simpa using hstopped) (by simpa using ha), Memory.read_write_same]

/-! ### START and START_PC (R43, R345, R346) -/

/-- Settles O54: the write performs `State.start`, which touches pc, STATE and the fault registers alone. -/
theorem startAction : Obligations.StartAction := by
  unfold Obligations.StartAction
  intro s x hstopped hx
  have hact : hostAct (.writeWindow 0x00 x) s = .next s.start := by
    rw [hostAct, State.writeWindow_ctrl_of_stopped hstopped hx]
  exact ⟨s.start, hact, rfl, rfl, rfl, rfl, rfl, rfl, rfl, rfl, rfl, rfl, rfl, rfl, rfl⟩

/-- The mask of START_PC clears bits 1..0 and keeps the others (R43). -/
theorem getLsbD_startPcMask (x : Word) {i : Nat} (hi : i < 32) :
    (x &&& 0xFFFFFFFC#32).getLsbD i = (x.getLsbD i && decide (2 ≤ i)) := by
  have hmask : ∀ i < 32, (0xFFFFFFFC#32).getLsbD i = decide (2 ≤ i) := by decide
  rw [BitVec.getLsbD_and, hmask i hi]

/-- Settles O55: CTRL ignores the write, and `State.setStartPc` touches START_PC alone. -/
theorem startWhileRunning : Obligations.StartWhileRunning := by
  unfold Obligations.StartWhileRunning
  intro s x hrun
  refine ⟨?_, s.setStartPc x, rfl, rfl, rfl, rfl, fun i hi => getLsbD_startPcMask x hi⟩
  rw [hostAct, State.writeWindow_ctrl_of_running hrun]

theorem extractLsb'_startPcMask (x : Word) : (x &&& 0xFFFFFFFC#32).extractLsb' 0 2 = 0#2 := by
  apply BitVec.eq_of_getLsbD_eq
  intro i hi
  have hlow : ¬2 ≤ i := by omega
  simp only [BitVec.getLsbD_extractLsb', Nat.zero_add, getLsbD_startPcMask x (show i < 32 by omega), hlow, decide_false,
    Bool.and_false, BitVec.getLsbD_zero]

/-- The mask leaves a word-aligned address as it is. -/
theorem startPcMask_of_aligned {x : Word} (h : x.toNat % 4 = 0) : x &&& 0xFFFFFFFC#32 = x := by
  have hlow : x.toNat = 2 ^ 2 * (x.toNat / 4) := by omega
  apply BitVec.eq_of_getLsbD_eq
  intro i hi
  rw [getLsbD_startPcMask x hi, BitVec.getLsbD, hlow, Nat.testBit_two_pow_mul]
  cases h2 : decide (2 ≤ i) <;> simp

/-! ### The invariant of the host's operations (R340, R341, R345 to R348) -/

/-! The parts of a reset state that hold a value of their own. By `simp only`, since `rfl` would evaluate the free registers. -/

@[simp] theorem State.hostReset_imem (s : State) :
    s.hostReset.imem = Memory.ofCells s.imemSize (Config.resetImem s.resets) := by
  simp only [State.hostReset]

@[simp] theorem State.hostReset_dmem (s : State) :
    s.hostReset.dmem = Memory.ofCells s.dmemSize (Config.resetDmem s.resets) := by
  simp only [State.hostReset]

@[simp] theorem State.hostReset_imemSize (s : State) : s.hostReset.imemSize = s.imemSize := by
  simp only [State.hostReset]

@[simp] theorem State.hostReset_dmemSize (s : State) : s.hostReset.dmemSize = s.dmemSize := by
  simp only [State.hostReset]

section Inv
variable {s : State}

theorem State.Inv.start (hs : s.Inv) : s.start.Inv where
  imemSize_valid := hs.imemSize_valid
  dmemSize_valid := hs.dmemSize_valid
  imem_wf := hs.imem_wf
  dmem_wf := hs.dmem_wf
  imem_within := hs.imem_within
  dmem_within := hs.dmem_within
  pc_aligned := hs.startPc_aligned
  startPc_aligned := hs.startPc_aligned
  cause_iff_faulted := by simp
  faultPc_is_pc hfaulted := by simp at hfaulted
  no_fault_recorded _ := ⟨rfl, rfl⟩

theorem State.Inv.setStartPc (hs : s.Inv) (x : Word) : (s.setStartPc x).Inv :=
  { hs with startPc_aligned := extractLsb'_startPcMask x }

theorem State.Inv.writeV (hs : s.Inv) (r : VReg) (x : VWord) : (s.writeV r x).Inv := { hs with }

theorem State.Inv.writeS (hs : s.Inv) (r : SReg) (x : Word) : (s.writeS r x).Inv := { hs with }

theorem State.Inv.writeImem (hs : s.Inv) {a : Nat} (ha : a < s.imemSize) (x : Byte) :
    State.Inv { s with imem := s.imem.write a x } :=
  { hs with
    imem_wf := Memory.write_wf a x hs.imem_wf
    imem_within := Memory.write_within a x hs.imem_within ha }

theorem State.Inv.writeDmem (hs : s.Inv) {a : Nat} (ha : a < s.dmemSize) (x : Byte) :
    State.Inv { s with dmem := s.dmem.write a x } :=
  { hs with
    dmem_wf := Memory.write_wf a x hs.dmem_wf
    dmem_within := Memory.write_within a x hs.dmem_within ha }

/-- Whatever a reset leaves in the memories is canonical and lists only bytes that exist (R340, R341). -/
theorem State.Inv.hostReset (hs : s.Inv) : s.hostReset.Inv where
  imemSize_valid := by rw [State.hostReset_imemSize]; exact hs.imemSize_valid
  dmemSize_valid := by rw [State.hostReset_dmemSize]; exact hs.dmemSize_valid
  imem_wf := by rw [State.hostReset_imem]; exact (Memory.ofCells_wf _ _).1
  dmem_wf := by rw [State.hostReset_dmem]; exact (Memory.ofCells_wf _ _).1
  imem_within := by rw [State.hostReset_imem, State.hostReset_imemSize]; exact (Memory.ofCells_wf _ _).2
  dmem_within := by rw [State.hostReset_dmem, State.hostReset_dmemSize]; exact (Memory.ofCells_wf _ _).2
  pc_aligned := rfl
  startPc_aligned := rfl
  cause_iff_faulted := by simp [State.hostReset]
  faultPc_is_pc _ := rfl
  no_fault_recorded _ := ⟨rfl, rfl⟩

end Inv

/-- A write of the control window is a START, a write of START_PC, or nothing (R41 to R43). -/
theorem State.writeWindow_cases (s : State) (offset : Nat) (x : Word) :
    s.writeWindow offset x = s.start ∨ s.writeWindow offset x = s.setStartPc x ∨ s.writeWindow offset x = s := by
  unfold State.writeWindow
  split
  · split
    · exact .inl rfl
    · exact .inr (.inr rfl)
  · exact .inr (.inl rfl)
  · exact .inr (.inr rfl)

theorem State.Inv.writeWindow {s : State} (hs : s.Inv) (offset : Nat) (x : Word) : (s.writeWindow offset x).Inv := by
  obtain h | h | h := s.writeWindow_cases offset x <;> rw [h]
  · exact hs.start
  · exact hs.setStartPc x
  · exact hs

/-- Settles O59, by the operation: each answers one state, and that state keeps the rules. -/
theorem hostKeepsInvariant : Obligations.HostKeepsInvariant := by
  unfold Obligations.HostKeepsInvariant
  intro op s t hs h
  cases op with
  | reset =>
    obtain rfl : s.hostReset = t := Host.Outcome.next.inj h
    exact hs.hostReset
  | writeWindow offset x =>
    obtain rfl : s.writeWindow offset x = t := Host.Outcome.next.inj h
    exact hs.writeWindow offset x
  | writeV r x =>
    obtain ⟨-, ⟨⟩⟩ := (s.whileStopped_eq_next _ t).mp h
    exact hs.writeV r x
  | writeS r x =>
    obtain ⟨-, ⟨⟩⟩ := (s.whileStopped_eq_next _ t).mp h
    exact hs.writeS r x
  | writeImem a x =>
    obtain ⟨-, hexisting⟩ := (s.whileStopped_eq_next _ t).mp h
    obtain ⟨ha, ⟨⟩⟩ := (existing_eq_next a _ _ t).mp hexisting
    exact hs.writeImem ha x
  | writeDmem a x =>
    obtain ⟨-, hexisting⟩ := (s.whileStopped_eq_next _ t).mp h
    obtain ⟨ha, ⟨⟩⟩ := (existing_eq_next a _ _ t).mp hexisting
    exact hs.writeDmem ha x

/-! ### The bound on a run (R353, R354) -/

/-- Every instruction answers a next state: an access fault is one too (R306). -/
theorem exec_answers (i : Instr) (s : State) : ∃ t, exec i s = .next t := by
  cases i
  case vld vt sb off =>
    simp only [exec, execVld]
    split <;> exact ⟨_, rfl⟩
  case vst vt sb off =>
    simp only [exec, execVst]
    split <;> exact ⟨_, rfl⟩
  all_goals exact ⟨_, rfl⟩

theorem step_answers {s : State} (hrun : s.seq = .running) : ∃ t, step s = .next t := by
  cases hfetch : s.fetch with
  | ok i => rw [step_of_fetch_ok hrun hfetch]; exact exec_answers i s
  | error fault => exact ⟨_, step_of_fetch_error hrun hfetch⟩

/-- A step that does not end the run has fetched inside IMEM, and the next fetch is one word further on: below 2^32 pc does not
wrap. -/
theorem step_ends_or_advances {s t : State} (hsize : s.imemSize < 2 ^ 32) (h : step s = .next t) :
    t.ended = true ∨
      t.seq = .running ∧ s.pc.toNat + 4 ≤ s.imemSize ∧ t.pc.toNat = s.pc.toNat + 4 ∧ t.imemSize = s.imemSize := by
  obtain ⟨-, -, himemSize, -⟩ := sequencerNeverWritesImem s t h
  obtain ⟨hadvance, -⟩ := pcAdvancesByFour s t h
  obtain ⟨hrun, -⟩ | ⟨hhalted, -⟩ | ⟨hfaulted, -⟩ := onlyHaltAndFaultsStop s t h
  · obtain ⟨-, ⟨i, hfetch, -⟩ | ⟨c, info, -, rfl⟩⟩ := step_cases h
    · obtain ⟨hinside, -⟩ := (s.fetch_eq_ok i).mp hfetch
      have hpc := hadvance (by simp [hrun])
      exact .inr ⟨hrun, hinside, by omega, himemSize⟩
    · simp at hrun
  · exact .inl (by simp [State.ended, hhalted])
  · exact .inl (by simp [State.ended, hfaulted])

theorem steps_succ_of_next {s t : State} (h : step s = .next t) (k : Nat) : steps (k + 1) s = steps k t := by
  rw [steps, h]

/-- Settles O19, by induction on the bytes of IMEM from pc on: a step that does not end the run leaves four fewer. -/
theorem runsEnd : Obligations.RunsEnd := by
  unfold Obligations.RunsEnd
  intro s hsize hrun
  induction hn : s.imemSize - s.pc.toNat using Nat.strong_induction_on generalizing s with
  | h n ih =>
    subst hn
    obtain ⟨u, hstep⟩ := step_answers hrun
    obtain hended | ⟨hrun', hinside, hpc, hsame⟩ := step_ends_or_advances hsize hstep
    · exact ⟨1, u, by omega, by rw [steps_succ_of_next hstep, steps], hended⟩
    · obtain ⟨k, t, hk, hsteps, hended⟩ := ih _ (by omega) u (by omega) hrun' rfl
      exact ⟨k + 1, t, by omega, by rw [steps_succ_of_next hstep, hsteps], hended⟩

end Sys2Proof.Machine
end

section
/-! Proof of the statement about the launch sequence (spec/70_reset_and_hazards.md R350): the state that the host's loads leave is
written out once (`State.loaded`), and what stands in its memories and registers is read off it. -/

namespace Sys2Proof.Machine

/-! ### Bytes and words loaded one after another (R64, R348) -/

/-- These bytes written from address `a` up. -/
def Memory.writeBytes (m : Memory) (a : Nat) : List Byte → Memory
  | [] => m
  | x :: rest => Memory.writeBytes (m.write a x) (a + 1) rest

theorem Memory.read_writeBytes_below (m : Memory) {a b : Nat} (h : b < a) (bytes : List Byte) :
    (m.writeBytes a bytes).read b = m.read b := by
  induction bytes generalizing m a with
  | nil => rfl
  | cons x rest ih => rw [Memory.writeBytes, ih _ (by omega), Memory.read_write_other m x (by omega)]

theorem Memory.read_writeBytes_inside (m : Memory) (a : Nat) (bytes : List Byte) {j : Nat} (h : j < bytes.length) :
    (m.writeBytes a bytes).read (a + j) = bytes[j] := by
  induction bytes generalizing m a j with
  | nil => simp at h
  | cons x rest ih =>
    rw [Memory.writeBytes]
    cases j with
    | zero => exact (Memory.read_writeBytes_below _ (Nat.lt_succ_self a) rest).trans (m.read_write_same a x)
    | succ j =>
      have haddress : a + (j + 1) = a + 1 + j := by omega
      rw [haddress]
      exact ih _ _ (by simpa using h)

/-- The four bytes of a word, loaded one after another, are the little-endian write of the word (R64). -/
theorem Memory.writeBytes_word (m : Memory) (a : Nat) (w : Word) (rest : List Byte) :
    m.writeBytes a (bytesOfWord w ++ rest) = (m.writeWord a w).writeBytes (a + 4) rest := by
  simp [bytesOfWord, Memory.writeBytes, Memory.writeWord, Memory.writeLE, BitVec.extractLsb', Nat.shiftRight_eq_div_pow,
    Nat.div_div_eq_div_mul]

/-- A wide read gives back what a wide write of as many bytes left there. -/
theorem Memory.readLE_writeLE (m : Memory) (a v n : Nat) : (m.writeLE a v n).readLE a n = v % 256 ^ n := by
  induction n generalizing m a v with
  | zero => simp [Memory.readLE, Nat.mod_one]
  | succ n ih =>
    have hlow : ((m.write a (BitVec.ofNat 8 v)).writeLE (a + 1) (v / 256) n).read a = BitVec.ofNat 8 v := by
      rw [Memory.read_writeLE_outside _ _ _ _ _ (.inl (Nat.lt_succ_self a)), Memory.read_write_same]
    calc Memory.readLE _ a (n + 1)
      _ = v % 256 + 256 * (v / 256 % 256 ^ n) := by rw [Memory.writeLE, Memory.readLE, hlow, ih]; rfl
      _ = v % 256 ^ (n + 1) := by rw [Nat.pow_succ', Nat.mod_mul]

theorem Memory.readWord_writeWord (m : Memory) (a : Nat) (w : Word) : (m.writeWord a w).readWord a = w := by
  rw [Memory.readWord, Memory.writeWord, Memory.readLE_writeLE]
  have hlt := w.isLt
  rw [Nat.mod_eq_of_lt (by omega), BitVec.ofNat_toNat, BitVec.setWidth_eq]

theorem Memory.readLE_congr {m m' : Memory} {a n : Nat} (h : ∀ b, a ≤ b → b < a + n → m.read b = m'.read b) :
    m.readLE a n = m'.readLE a n := by
  induction n generalizing a with
  | zero => rfl
  | succ n ih =>
    rw [Memory.readLE, Memory.readLE, h a le_rfl (by omega), ih fun b hb hlt => h b (by omega) (by omega)]

/-- The words of a program, loaded from `a` up, read back one by one. -/
theorem Memory.readWord_writeBytes_words (m : Memory) (a : Nat) (program : List Word) {j : Nat}
    (h : j < program.length) : (m.writeBytes a (program.flatMap bytesOfWord)).readWord (a + 4 * j) = program[j] := by
  induction program generalizing m a j with
  | nil => simp at h
  | cons w rest ih =>
    rw [List.flatMap_cons, Memory.writeBytes_word]
    cases j with
    | zero =>
      have hkept : ∀ b, a ≤ b → b < a + 4 →
          ((m.writeWord a w).writeBytes (a + 4) (rest.flatMap bytesOfWord)).read b = (m.writeWord a w).read b :=
        fun b _ hb => Memory.read_writeBytes_below _ hb _
      calc Memory.readWord _ a
        _ = (m.writeWord a w).readWord a := congrArg (BitVec.ofNat 32) (Memory.readLE_congr hkept)
        _ = w := m.readWord_writeWord a w
    | succ j =>
      have haddress : a + 4 * (j + 1) = a + 4 + 4 * j := by omega
      rw [haddress]
      exact ih _ _ (by simpa using h)

theorem length_flatMap_bytesOfWord (program : List Word) :
    (program.flatMap bytesOfWord).length = 4 * program.length := by
  induction program with
  | nil => rfl
  | cons w rest ih =>
    rw [List.flatMap_cons, List.length_append, ih, List.length_cons, Nat.mul_succ, Nat.add_comm]
    rfl

/-! ### Registers loaded one after another (R347) -/

section Registers
variable {R α : Type} (num : R → Fin 16)

/-- A register file after these writes, the last one to a register standing. -/
def writeRegs (file : Vector α 16) : List (R × α) → Vector α 16
  | [] => file
  | p :: rest => writeRegs (file.set (num p.1) p.2) rest

variable {num} (hnum : Function.Injective num)
include hnum

theorem getElem_writeRegs_of_notMem (file : Vector α 16) {ps : List (R × α)} {r : R} (h : r ∉ ps.map Prod.fst) :
    (writeRegs num file ps)[num r] = file[num r] := by
  induction ps generalizing file with
  | nil => rfl
  | cons p rest ih =>
    rw [List.map_cons, List.mem_cons, not_or] at h
    obtain ⟨hne, hrest⟩ := h
    have hplace : ((num p.1 : Fin 16) : Nat) ≠ num r := fun e => hne (hnum (Fin.ext e)).symm
    rw [writeRegs, ih _ hrest]
    exact Vector.getElem_set_ne _ _ hplace

theorem getElem_writeRegs_of_once [DecidableEq R] (file : Vector α 16) {ps : List (R × α)} {p : R × α} (hp : p ∈ ps)
    (honce : (ps.map Prod.fst).count p.1 = 1) : (writeRegs num file ps)[num p.1] = p.2 := by
  induction ps generalizing file with
  | nil => exact absurd hp List.not_mem_nil
  | cons q rest ih =>
    rw [List.map_cons, List.count_cons] at honce
    rw [writeRegs]
    obtain rfl | hrest := List.mem_cons.mp hp
    · have hnot : p.1 ∉ rest.map Prod.fst := List.count_eq_zero.mp (by simpa using honce)
      rw [getElem_writeRegs_of_notMem hnum _ hnot]
      exact Vector.getElem_set_self _
    · have hpos : 0 < (rest.map Prod.fst).count p.1 := List.count_pos_iff.mpr (List.mem_map_of_mem hrest)
      exact ih _ hrest (by omega)

end Registers

theorem VReg.num_injective : Function.Injective VReg.num := fun ⟨_⟩ ⟨_⟩ h => congrArg VReg.mk h

theorem SReg.num_injective : Function.Injective SReg.num := fun ⟨_⟩ ⟨_⟩ h => congrArg SReg.mk h

/-! ### The host's operations of a launch (R350) -/

/-- One list of operations, then another. -/
theorem hostActs_append {ops rest : List HostOp} {s t u : State} (h : hostActs ops s = .next t)
    (hrest : hostActs rest t = .next u) : hostActs (ops ++ rest) s = .next u := by
  induction ops generalizing s with
  | nil => cases h; exact hrest
  | cons op ops ih =>
    rw [List.cons_append, hostActs]
    rw [hostActs] at h
    split at h
    · exact ih h
    all_goals cases h

theorem hostActs_cons {op : HostOp} {rest : List HostOp} {s t u : State} (h : hostAct op s = .next t)
    (hrest : hostActs rest t = .next u) : hostActs (op :: rest) s = .next u := by
  rw [hostActs, h]
  exact hrest

theorem hostActs_writesImem {s : State} (hstopped : s.seq ≠ .running) {a : Nat} {bytes : List Byte}
    (h : a + bytes.length ≤ s.imemSize) :
    hostActs (writesImem a bytes) s = .next { s with imem := s.imem.writeBytes a bytes } := by
  induction bytes generalizing s a with
  | nil => rfl
  | cons x rest ih =>
    rw [List.length_cons] at h
    refine hostActs_cons (hostAct_writeImem_of_stopped hstopped (by omega) x) (ih ?stopped ?inside)
    case stopped => exact hstopped
    case inside => simp only; omega

theorem hostActs_writesDmem {s : State} (hstopped : s.seq ≠ .running) {a : Nat} {bytes : List Byte}
    (h : a + bytes.length ≤ s.dmemSize) :
    hostActs (writesDmem a bytes) s = .next { s with dmem := s.dmem.writeBytes a bytes } := by
  induction bytes generalizing s a with
  | nil => rfl
  | cons x rest ih =>
    rw [List.length_cons] at h
    refine hostActs_cons (hostAct_writeDmem_of_stopped hstopped (by omega) x) (ih ?stopped ?inside)
    case stopped => exact hstopped
    case inside => simp only; omega

theorem hostActs_writeV {s : State} (hstopped : s.seq ≠ .running) (vs : List (VReg × VWord)) :
    hostActs (vs.map fun p => .writeV p.1 p.2) s = .next { s with vregs := writeRegs VReg.num s.vregs vs } := by
  induction vs generalizing s with
  | nil => rfl
  | cons p rest ih => exact hostActs_cons (hostAct_writeV_of_stopped hstopped p.1 p.2) (ih hstopped)

theorem hostActs_writeS {s : State} (hstopped : s.seq ≠ .running) (ss : List (SReg × Word)) :
    hostActs (ss.map fun p => .writeS p.1 p.2) s = .next { s with sregs := writeRegs SReg.num s.sregs ss } := by
  induction ss generalizing s with
  | nil => rfl
  | cons p rest ih => exact hostActs_cons (hostAct_writeS_of_stopped hstopped p.1 p.2) (ih hstopped)

theorem hostActs_start {s : State} (hstopped : s.seq ≠ .running) (x : Word) :
    hostActs [.writeWindow 0x08 x, .writeWindow 0x00 1#32] s = .next (s.setStartPc x).start := by
  refine hostActs_cons (t := s.setStartPc x) rfl (hostActs_cons (t := (s.setStartPc x).start) ?_ rfl)
  rw [hostAct, State.writeWindow_ctrl_of_stopped (by simpa using hstopped) (by decide)]

/-- The state after steps (2) to (4) of R350: program, input and registers in place, the control state as before. -/
def State.loaded (s : State) (start : Nat) (program : List Word) (base : Nat) (input : List Byte)
    (vs : List (VReg × VWord)) (ss : List (SReg × Word)) : State :=
  { s with
    imem := s.imem.writeBytes start (program.flatMap bytesOfWord)
    dmem := s.dmem.writeBytes base input
    vregs := writeRegs VReg.num s.vregs vs
    sregs := writeRegs SReg.num s.sregs ss }

/-- A launch from a stopped state loads, sets START_PC and starts (R350). -/
theorem hostActs_launch {s : State} {start base : Nat} {program : List Word} {input : List Byte}
    (hstopped : s.seq ≠ .running) (hprogram : start + 4 * program.length ≤ s.imemSize)
    (hinput : base + input.length ≤ s.dmemSize) (vs : List (VReg × VWord)) (ss : List (SReg × Word)) :
    hostActs (launch start program base input vs ss) s =
      .next ((s.loaded start program base input vs ss).setStartPc (BitVec.ofNat 32 start)).start := by
  have himem := hostActs_writesImem (bytes := program.flatMap bytesOfWord) hstopped
    (length_flatMap_bytesOfWord program ▸ hprogram)
  refine hostActs_append (hostActs_append (hostActs_append (hostActs_append himem
    (hostActs_writesDmem ?_ hinput)) (hostActs_writeV ?_ vs)) (hostActs_writeS ?_ ss)) (hostActs_start ?_ _)
  all_goals exact hstopped

/-- Settles O60: the loaded state holds program, input and registers, START_PC keeps the aligned start, and START copies it. -/
theorem launchRunsProgram : Obligations.LaunchRunsProgram := by
  unfold Obligations.LaunchRunsProgram
  intro s start program base input vs ss hstopped haligned hstart hprogram hinput
  have hnat : (BitVec.ofNat 32 start).toNat = start := by rw [BitVec.toNat_ofNat, Nat.mod_eq_of_lt hstart]
  refine ⟨_, hostActs_launch hstopped hprogram hinput vs ss, rfl, ?pc, rfl, rfl, rfl,
    fun p hp honce => getElem_writeRegs_of_once VReg.num_injective s.vregs hp honce,
    fun p hp honce => getElem_writeRegs_of_once SReg.num_injective s.sregs hp honce,
    fun r hr => getElem_writeRegs_of_notMem VReg.num_injective s.vregs hr,
    fun r hr => getElem_writeRegs_of_notMem SReg.num_injective s.sregs hr,
    fun j h => s.imem.readWord_writeBytes_words start program h,
    fun j h => s.dmem.read_writeBytes_inside base input h⟩
  rw [State.start_pc, State.setStartPc_startPc, startPcMask_of_aligned (by rw [hnat]; exact haligned), hnat]

end Sys2Proof.Machine
end
